-- ==== Sys2Proof/Word.lean ====
section
/-! DEFINITION. The word types of the block: 8-bit bytes (00_scope.md R5, REG_W) and the three ignored
low address bits (30_encoding.md R61, `address[2:0]`). -/

namespace Sys2Proof

/-- A byte: the width of every register and of every unit of data (00_scope.md R5 and section 6). -/
abbrev Byte := BitVec 8

/-- `address[2:0]`, the byte lane inside the 8-byte stride, which selects nothing (30_encoding.md R61). -/
abbrev Lane := BitVec 3

end Sys2Proof
end

