-- ==== Sys2Proof/Config.lean ====
section
/-! DEFINITION. What is fixed for the machine: the constants of 00_scope.md R5, the parameters of R6 (the eleven
RESET_* bytes and IER_TRIG_BIT, carried as data in State so that claims quantify over them), and the free values. -/

namespace Sys2Proof

/-- The register file: eleven 8-bit registers in the order of the source's list (10_state.md R10, R11). -/
structure Regs where
  /-- Interrupt Enable (R12) -/
  ier : Byte
  /-- Interrupt Identification; bit 0 is the inverted interrupt-pending flag (R13) -/
  iir : Byte
  /-- FIFO Control, write-only and without function (R14) -/
  fcr : Byte
  /-- Extended Feature (R15) -/
  efr : Byte
  /-- Line Control; bit 7 is DLAB, the whole value is compared with `0xBF` (R16) -/
  lcr : Byte
  /-- Modem Control (R17) -/
  mcr : Byte
  /-- Line Status (R18) -/
  lsr : Byte
  /-- Modem Status, written by no rule (R19) -/
  msr : Byte
  /-- Scratch (R20) -/
  scr : Byte
  /-- Divisor Latch Low (R21) -/
  dll : Byte
  /-- Divisor Latch High (R21) -/
  dlm : Byte
deriving DecidableEq, Repr

/-- The parameters the spec asks a model to take as arguments (00_scope.md R6; 92_eei_decisions.md D1, D2). -/
structure Params where
  /-- RESET_IER to RESET_DLM: the register values a successful CONSTRUCT leaves (10_state.md R29). -/
  reset : Regs
  /-- IER_TRIG_BIT: the bit of IER that gates both interrupt raise paths (D1). -/
  ierTrigBit : Fin 8
deriving DecidableEq, Repr

/-- The spec's default RESET_* values (10_state.md R29): all `0x00` but IIR and LSR. Spec decision D2, log 4. -/
def Regs.default : Regs :=
  { ier := 0x00, iir := 0x01, fcr := 0x00, efr := 0x00, lcr := 0x00, mcr := 0x00, lsr := 0x60, msr := 0x00,
    scr := 0x00, dll := 0x00, dlm := 0x00 }

/-- The spec's default parameters (00_scope.md R6). Spec decisions D1 and D2, log 4. -/
def Params.default : Params := { reset := Regs.default, ierTrigBit := 1 }

namespace Config

/-- N_IDX: register indices in the window (00_scope.md R5). -/
@[simp] def nIdx : Nat := 8

/-- STRIDE_SHIFT: index = address >> 3 (00_scope.md R5). -/
@[simp] def strideShift : Nat := 3

/-- WINDOW_BYTES: N_IDX << STRIDE_SHIFT (00_scope.md R5). -/
@[simp] def windowBytes : Nat := nIdx <<< strideShift

/-- DLAB_BIT: the bit of LCR that is DLAB (00_scope.md R5). -/
@[simp] def dlabBit : Nat := 7

/-- EXT_SENTINEL: the LCR value that selects the extended bank (00_scope.md R5). -/
@[simp] def extSentinel : Byte := 0xBF

/-- IP_BIT: the bit of IIR that holds the interrupt-pending flag, inverted (00_scope.md R5). -/
@[simp] def ipBit : Nat := 0

/-- LSR_DR_BIT: the bit of LSR that reports receive-readiness (00_scope.md R5). -/
@[simp] def lsrDrBit : Nat := 0

/-- LSR_TXE_MASK: bits 5 and 6 of LSR, always reported set (00_scope.md R5). -/
@[simp] def lsrTxeMask : Byte := 0x60

/-- UART_BASE: the bus address of window offset 0, left OPEN by the spec (20_memory.md R53, D9).
A free value: no proof can see what it is. Log 19. -/
opaque uartBase : Nat

/-- FREE VALUE. The byte standing in a place the block does not drive (D4, U6, U7: "any value") or in a register
after DESTROY ("no register value survives", R128), for the draw with this number. Log 7 and 12. -/
opaque freeByte : Nat → Byte

end Config

end Sys2Proof
end

