-- ==== Sys2Proof/Syntax.lean ====
section
/-! DEFINITION. What an agent presents (Operation, the seven kinds of 30_encoding.md R60) and what it resolves to
(Instr, the 29 rows of spec/opcode_table.json, 30_encoding.md R67). -/

namespace Sys2Proof

/-- The four agents that act on the block (00_scope.md R4). -/
inductive Agent
  | busMaster | ticker | host | lifecycleOwner
deriving DecidableEq, Repr

/-- An operation as presented to the block: the seven kinds of 30_encoding.md R60 with the operands of R60 and R61.
`length` of a STORE is the length of its `in` buffer, which R60 makes a buffer of `length` bytes (log 21).
The old contents of a LOAD's `out` buffer are no operand: what is not driven is a free value (log 7). -/
inductive Operation
  /-- `LOAD(address, length, out)` -/
  | load (address : Nat) (length : Nat)
  /-- `STORE(address, length, in)` -/
  | store (address : Nat) (data : List Byte)
  /-- `TICK` -/
  | tick
  /-- `HOST.RX(v)` -/
  | hostRx (v : Byte)
  /-- `CONSTRUCT` -/
  | construct
  /-- `CREATE_LINK(path)` -/
  | createLink (path : String)
  /-- `DESTROY` -/
  | destroy
deriving DecidableEq, Repr

/-- Which agent presents an operation (00_scope.md R4, 30_encoding.md R60). -/
def Operation.agent : Operation → Agent
  | .load _ _ => .busMaster
  | .store _ _ => .busMaster
  | .tick => .ticker
  | .hostRx _ => .host
  | .construct => .lifecycleOwner
  | .createLink _ => .lifecycleOwner
  | .destroy => .lifecycleOwner

/-- An operation resolved to its row of spec/opcode_table.json, one constructor per row (30_encoding.md R67).
A bus row inside the window fixes `address[5:3]`, so it keeps only the lane `address[2:0]`. -/
inductive Instr
  /-- `LD.DATA` (R81): LOAD, index 0, `reg.lcr[7] == 0`. -/
  | ldData (lane : Lane) (length : Nat)
  /-- `LD.DLL` (R82): LOAD, index 0, `reg.lcr[7] == 1`. -/
  | ldDll (lane : Lane) (length : Nat)
  /-- `LD.IER` (R83): LOAD, index 1, `reg.lcr[7] == 0`. -/
  | ldIer (lane : Lane) (length : Nat)
  /-- `LD.DLM` (R84): LOAD, index 1, `reg.lcr[7] == 1`. -/
  | ldDlm (lane : Lane) (length : Nat)
  /-- `LD.IIR` (R85): LOAD, index 2, `reg.lcr != 0xBF`. -/
  | ldIir (lane : Lane) (length : Nat)
  /-- `LD.EFR` (R86): LOAD, index 2, `reg.lcr == 0xBF`. -/
  | ldEfr (lane : Lane) (length : Nat)
  /-- `LD.LCR` (R87): LOAD, index 3. -/
  | ldLcr (lane : Lane) (length : Nat)
  /-- `LD.MCR` (R88): LOAD, index 4. -/
  | ldMcr (lane : Lane) (length : Nat)
  /-- `LD.LSR` (R89): LOAD, index 5. -/
  | ldLsr (lane : Lane) (length : Nat)
  /-- `LD.MSR` (R90): LOAD, index 6. -/
  | ldMsr (lane : Lane) (length : Nat)
  /-- `LD.SCR` (R91): LOAD, index 7. -/
  | ldScr (lane : Lane) (length : Nat)
  /-- `LD.OOW` (R92): LOAD, `address >> 3 >= 8`. -/
  | ldOow (address : Nat) (length : Nat)
  /-- `ST.DATA` (R101): STORE, index 0, `reg.lcr[7] == 0`. -/
  | stData (lane : Lane) (data : List Byte)
  /-- `ST.DLL` (R102): STORE, index 0, `reg.lcr[7] == 1`. -/
  | stDll (lane : Lane) (data : List Byte)
  /-- `ST.IER` (R103): STORE, index 1, `reg.lcr[7] == 0`. -/
  | stIer (lane : Lane) (data : List Byte)
  /-- `ST.DLM` (R104): STORE, index 1, `reg.lcr[7] == 1`. -/
  | stDlm (lane : Lane) (data : List Byte)
  /-- `ST.FCR` (R105): STORE, index 2, `reg.lcr != 0xBF`. -/
  | stFcr (lane : Lane) (data : List Byte)
  /-- `ST.EFR` (R106): STORE, index 2, `reg.lcr == 0xBF`. -/
  | stEfr (lane : Lane) (data : List Byte)
  /-- `ST.LCR` (R107): STORE, index 3. -/
  | stLcr (lane : Lane) (data : List Byte)
  /-- `ST.MCR` (R108): STORE, index 4. -/
  | stMcr (lane : Lane) (data : List Byte)
  /-- `ST.LSR` (R109): STORE, index 5. -/
  | stLsr (lane : Lane) (data : List Byte)
  /-- `ST.MSR` (R110): STORE, index 6. -/
  | stMsr (lane : Lane) (data : List Byte)
  /-- `ST.SCR` (R111): STORE, index 7. -/
  | stScr (lane : Lane) (data : List Byte)
  /-- `ST.OOW` (R112): STORE, `address >> 3 >= 8`. -/
  | stOow (address : Nat) (data : List Byte)
  /-- `TICK` (R120): TICK: poll for arrived data. -/
  | tick
  /-- `HOST.RX` (R124): HOST.RX: a byte arrives from the host. -/
  | hostRx (v : Byte)
  /-- `CONSTRUCT` (R126): CONSTRUCT: the reset. -/
  | construct
  /-- `CREATE_LINK` (R127): CREATE_LINK: publish the link. -/
  | createLink (path : String)
  /-- `DESTROY` (R128): DESTROY: end of life. -/
  | destroy
deriving DecidableEq, Repr

/-- The row's mnemonic, as the table spells it. -/
def Instr.mnemonic : Instr → String
  | .ldData _ _ => "LD.DATA"
  | .ldDll _ _ => "LD.DLL"
  | .ldIer _ _ => "LD.IER"
  | .ldDlm _ _ => "LD.DLM"
  | .ldIir _ _ => "LD.IIR"
  | .ldEfr _ _ => "LD.EFR"
  | .ldLcr _ _ => "LD.LCR"
  | .ldMcr _ _ => "LD.MCR"
  | .ldLsr _ _ => "LD.LSR"
  | .ldMsr _ _ => "LD.MSR"
  | .ldScr _ _ => "LD.SCR"
  | .ldOow _ _ => "LD.OOW"
  | .stData _ _ => "ST.DATA"
  | .stDll _ _ => "ST.DLL"
  | .stIer _ _ => "ST.IER"
  | .stDlm _ _ => "ST.DLM"
  | .stFcr _ _ => "ST.FCR"
  | .stEfr _ _ => "ST.EFR"
  | .stLcr _ _ => "ST.LCR"
  | .stMcr _ _ => "ST.MCR"
  | .stLsr _ _ => "ST.LSR"
  | .stMsr _ _ => "ST.MSR"
  | .stScr _ _ => "ST.SCR"
  | .stOow _ _ => "ST.OOW"
  | .tick => "TICK"
  | .hostRx _ => "HOST.RX"
  | .construct => "CONSTRUCT"
  | .createLink _ => "CREATE_LINK"
  | .destroy => "DESTROY"

end Sys2Proof
end

