-- ==== Sys2Proof/Machine/State.lean ====
section
/-! DEFINITION. The state of one device (10_state.md R10) and of its interface to its four agents, as plain data, the
ways an operation can end (60_exceptions.md R150 to R153), and the state right after reset (70_reset_and_hazards.md R180). -/

namespace Sys2Proof.Machine

/-- Whether the device exists and is usable (10_state.md R31). -/
inductive Life
  | unbuilt | live | dead
deriving DecidableEq, Repr

/-- The bus failure, a return value of a LOAD or STORE (60_exceptions.md R151, R152). -/
inductive BusFailure
  /-- `address >> 3 >= 8` -/
  | outOfWindow
deriving DecidableEq, Repr

/-- The fatal host-resource errors (60_exceptions.md R151, R153). -/
inductive Fatal
  /-- The host channel cannot be allocated (CONSTRUCT). -/
  | channelAllocFailed
  /-- The channel cannot be configured raw (CONSTRUCT). -/
  | channelConfigFailed
  /-- The channel endpoint's name cannot be resolved (CREATE_LINK). -/
  | linkResolveFailed
  /-- The link cannot be created, or a pre-existing object at the path cannot be removed (CREATE_LINK). -/
  | linkCreateFailed
  /-- The channel does not take the whole transmitted byte (ST.DATA). -/
  | txShortWrite
deriving DecidableEq, Repr

/-- What an operation returned to the agent that presented it (30_encoding.md R60, column "result"; R71). -/
inductive Response
  /-- An operation without a result ended normally. -/
  | done
  /-- A LOAD returned `true`; `out` is its buffer, `out[0]` first (40_load.md R80). -/
  | loadOk (out : List Byte)
  /-- A LOAD returned `false`; the block wrote nothing into `out` (40_load.md R92). -/
  | loadFail (why : BusFailure) (out : List Byte)
  /-- A STORE returned `true` (41_store.md R100). -/
  | storeOk
  /-- A STORE returned `false` (41_store.md R112). -/
  | storeFail (why : BusFailure)
  /-- A fatal error was reported to the lifecycle owner (60_exceptions.md R153). -/
  | fatal (error : Fatal)
deriving DecidableEq, Repr

/-- The host's answer to CONSTRUCT (42_tick_and_host.md R126). -/
inductive ConstructAnswer
  | ok | allocFailed | configFailed
deriving DecidableEq, Repr

/-- The host's answer to a CREATE_LINK that is not a no-op (42_tick_and_host.md R127; 90_conflicts.md C6). -/
inductive LinkAnswer
  | ok
  /-- The endpoint's name cannot be resolved. Whether the object at the path had been removed by then is not stated
  by the spec, so the host's answer says it (log 14). -/
  | resolveFailed (objectRemoved : Bool)
  /-- The pre-existing object at the path cannot be removed. -/
  | removeFailed
  /-- The object at the path was removed, the link cannot be created. -/
  | createFailed
deriving DecidableEq, Repr

/-- What the host environment answers to the one operation it is presented with: `tx_accept` of 42_tick_and_host.md R123
(D7) and the outcomes of the lifecycle operations. An input of the machine, any value allowed (log 3). -/
structure HostAnswers where
  /-- `tx_accept`: the channel takes the transmitted byte (R123). -/
  txAccept : Bool
  construct : ConstructAnswer
  link : LinkAnswer
  /-- DESTROY: the link is removed. Best effort (R128). -/
  linkRemoved : Bool
  /-- DESTROY: the channel is closed. Best effort (R128). -/
  channelClosed : Bool
deriving DecidableEq, Repr

/-- Every answer positive: the spec's default for `tx_accept` (D7), taken for the other answers too (log 3). -/
def HostAnswers.accepting : HostAnswers :=
  { txAccept := true, construct := .ok, link := .ok, linkRemoved := true, channelClosed := true }

/-- What the block has had done on the host, in order (42_tick_and_host.md R126 to R128). Log 14. -/
inductive HostAction
  | channelOpened
  | channelConfiguredRaw
  | objectRemovedAt (path : String)
  | linkCreatedAt (path : String)
  | linkRemovedAt (path : String)
  | channelClosed
deriving DecidableEq, Repr

/-- An operation presented to the block, with the host's answers to it. -/
structure Presented where
  op : Operation
  answers : HostAnswers
deriving DecidableEq, Repr

/-- Why the machine would stop with a fault: never. The spec gives every abnormal ending an effect (60_exceptions.md R152,
R153), so each is a next state whose `response` names it, and no meaning raises a fault (log 8). Safe. -/
inductive Fault
deriving DecidableEq, Repr

/-- Why an operation has no meaning. -/
inductive Refusal
  /-- Raised by exec's arm of an instruction that has no meaning yet. Safe. -/
  | notModelled (mnemonic : String)
  /-- Raised by every operation but CONSTRUCT presented while the device is not live (30_encoding.md R69):
  "refused by the model" (10_state.md R31, D15, U9). Safe. -/
  | notLive
  /-- Raised by CONSTRUCT while the device is live or dead (42_tick_and_host.md R126; U14). Safe. -/
  | notUnbuilt
  /-- Raised by a LOAD or STORE of length zero (20_memory.md R45, D5, U8). Safe. -/
  | zeroLength
  /-- Raised by a bus row's meaning in a state where the row's condition (30_encoding.md R67) does not hold. `step` never
  raises it: there the access resolves to another row. Safe (log 10). -/
  | otherRow
deriving DecidableEq, Repr

/-- The whole machine: the device of 10_state.md R10, its parameters, and its interface to its agents. -/
structure State where
  /-- The eleven registers (R10, R11). -/
  reg : Regs
  /-- Bytes the host has sent that the device has not consumed, oldest first (R24). -/
  rx : List Byte
  /-- Every byte the device has transmitted, oldest first (R24). -/
  tx : List Byte
  /-- `link_path`: none or a non-empty string (R25). -/
  linkPath : Option String
  /-- Whether the device exists and is usable (R31). -/
  life : Life
  /-- The parameters RESET_* and IER_TRIG_BIT (R29; 00_scope.md R6). Constant (log 4). -/
  params : Params
  /-- The operations presented and not yet run, in the total order of 20_memory.md R50. The model's own field (log 2). -/
  pending : List Presented
  /-- The host's answers to the operation being run. The model's own field (log 3). -/
  answers : HostAnswers
  /-- What the last operation returned. The model's own field (log 8). -/
  response : Response
  /-- What has been done on the host. The model's own field (log 14). -/
  hostLog : List HostAction
  /-- How many free bytes have been drawn. The model's own field (log 7). -/
  draws : Nat
deriving DecidableEq, Repr

/-- Before construction, with the spec's default parameters: no device, nothing presented (10_state.md R31). The registers do
not exist yet; what stands in their place is read by nothing and CONSTRUCT overwrites it (log 16). -/
def State.unbuilt : State :=
  { reg := Regs.default, rx := [], tx := [], linkPath := none, life := .unbuilt, params := Params.default, pending := [],
    answers := HostAnswers.accepting, response := .done, hostLog := [], draws := 0 }

/-- Right after reset: what a successful CONSTRUCT leaves with the spec's default parameters (70_reset_and_hazards.md R180,
10_state.md R29; the state S0 of 95_test_vectors.md). Logs 4, 5 and 24. -/
def State.reset : State :=
  { reg := Params.default.reset, rx := [], tx := [], linkPath := none, life := .live, params := Params.default, pending := [],
    answers := HostAnswers.accepting, response := .done, hostLog := [.channelOpened, .channelConfiguredRaw], draws := 0 }

end Sys2Proof.Machine
end

