-- ==== Sys2Proof/Machine/Flags.lean ====
section
/-! DEFINITION. The three things a program reads as flags (10_state.md R23): the interrupt-pending flag with its enable, its
raise and clear (60_exceptions.md R154 to R158) and the output that follows it (R161), and the Line Status bits a LOAD
reports (40_load.md R89). -/

namespace Sys2Proof.Machine

/-- The interrupt-pending flag: `reg.iir[0] == 0` (60_exceptions.md R154). -/
def pendingFlag (s : State) : Bool := !s.reg.iir.getLsbD Config.ipBit

/-- `irq_out`, a level that follows the flag (60_exceptions.md R161). Nothing consumes it by default (D8, log 20). -/
def irqOut (s : State) : Bool := pendingFlag s

/-- `reg.ier[IER_TRIG_BIT] == 1`, the one enable of both raise paths (60_exceptions.md R158, D1). -/
def trigEnabled (s : State) : Bool := s.reg.ier.getLsbD s.params.ierTrigBit.val

/-- `RaiseIrq()`: `reg.iir <- reg.iir & 0xFE` (60_exceptions.md R155). -/
def raiseIrq (s : State) : State := { s with reg := { s.reg with iir := s.reg.iir &&& 0xFE } }

/-- `ClearIrq()`: `reg.iir <- reg.iir | 0x01` (60_exceptions.md R157). -/
def clearIrq (s : State) : State := { s with reg := { s.reg with iir := s.reg.iir ||| 0x01 } }

/-- `RaiseIrq()` if its event's condition holds, else nothing. -/
def raiseIrqWhen (event : Bool) (s : State) : State := if event then raiseIrq s else s

/-- The byte a LOAD of Line Status reports: bit 0 recomputed from receive-readiness, bits 5 and 6 forced to 1, the other
bits as stored (40_load.md R89). -/
def lineStatus (stored : Byte) (ready : Bool) : Byte :=
  ((stored &&& 0xFE) ||| (if ready then 1#8 <<< Config.lsrDrBit else 0)) ||| Config.lsrTxeMask

end Sys2Proof.Machine
end

