-- ==== Sys2Proof/WellFormed.lean ====
section
/-! DEFINITION. Which resolved operations and which presented operations are inside the contract: a LOAD or STORE has
`length >= 1` (30_encoding.md R60, R69), an out-of-window row has `address >= 64` (20_memory.md R41). -/

namespace Sys2Proof

/-- A row with operands its format admits (30_encoding.md R60, R61). -/
def Instr.wf : Instr → Bool
  | .ldData _ length => decide (1 ≤ length)
  | .ldDll _ length => decide (1 ≤ length)
  | .ldIer _ length => decide (1 ≤ length)
  | .ldDlm _ length => decide (1 ≤ length)
  | .ldIir _ length => decide (1 ≤ length)
  | .ldEfr _ length => decide (1 ≤ length)
  | .ldLcr _ length => decide (1 ≤ length)
  | .ldMcr _ length => decide (1 ≤ length)
  | .ldLsr _ length => decide (1 ≤ length)
  | .ldMsr _ length => decide (1 ≤ length)
  | .ldScr _ length => decide (1 ≤ length)
  | .ldOow address length => decide (1 ≤ length) && decide (Config.windowBytes ≤ address)
  | .stData _ data => !data.isEmpty
  | .stDll _ data => !data.isEmpty
  | .stIer _ data => !data.isEmpty
  | .stDlm _ data => !data.isEmpty
  | .stFcr _ data => !data.isEmpty
  | .stEfr _ data => !data.isEmpty
  | .stLcr _ data => !data.isEmpty
  | .stMcr _ data => !data.isEmpty
  | .stLsr _ data => !data.isEmpty
  | .stMsr _ data => !data.isEmpty
  | .stScr _ data => !data.isEmpty
  | .stOow address data => !data.isEmpty && decide (Config.windowBytes ≤ address)
  | .tick => true
  | .hostRx _ => true
  | .construct => true
  | .createLink _ => true
  | .destroy => true

/-- A presented operation inside the contract: `length >= 1` for a bus access (20_memory.md R45, D5). -/
def Operation.inContract : Operation → Bool
  | .load _ length => decide (1 ≤ length)
  | .store _ data => !data.isEmpty
  | .tick => true
  | .hostRx _ => true
  | .construct => true
  | .createLink _ => true
  | .destroy => true

end Sys2Proof
end

