-- ==== Sys2Proof/Decode.lean ====
section
/-! DEFINITION. From a presented operation to its row and back: the decode algorithm of 30_encoding.md R67, the operation
map of spec/opcode_table.json as data (R68), and the encoder. The block has no instruction words: what is encoded is the
operation an agent presents, its kind, address, length and data (30_encoding.md, opening; log 1). -/

namespace Sys2Proof

/-- `idx(address) = address >> 3` (30_encoding.md R65). -/
def idx (address : Nat) : Nat := address >>> Config.strideShift

/-- `address[2:0]`, the ignored byte lane (30_encoding.md R61, 20_memory.md R43). -/
def laneOf (address : Nat) : Lane := BitVec.ofNat 3 address

/-- `DLAB()`: bit 7 of Line Control (30_encoding.md R66). -/
def dlab (lcr : Byte) : Bool := lcr.getLsbD Config.dlabBit

/-- `EXT()`: Line Control holds exactly `0xBF` (30_encoding.md R66). -/
def ext (lcr : Byte) : Bool := lcr == Config.extSentinel

/-- The row's condition on Line Control: the `cond` field of spec/opcode_table.json. -/
inductive RowCond
  | always | dlabClear | dlabSet | notExt | ext
deriving DecidableEq, Repr

/-- The row condition evaluated on the value `reg.lcr` has at the start of the operation (30_encoding.md R66). -/
def RowCond.holds (lcr : Byte) : RowCond → Bool
  | .always => true
  | .dlabClear => !dlab lcr
  | .dlabSet => dlab lcr
  | .notExt => !Sys2Proof.ext lcr
  | .ext => Sys2Proof.ext lcr

/-- The condition of each row (30_encoding.md R67, the table "in words"). -/
def Instr.rowCond : Instr → RowCond
  | .ldData _ _ => .dlabClear
  | .ldDll _ _ => .dlabSet
  | .ldIer _ _ => .dlabClear
  | .ldDlm _ _ => .dlabSet
  | .ldIir _ _ => .notExt
  | .ldEfr _ _ => .ext
  | .ldLcr _ _ => .always
  | .ldMcr _ _ => .always
  | .ldLsr _ _ => .always
  | .ldMsr _ _ => .always
  | .ldScr _ _ => .always
  | .ldOow _ _ => .always
  | .stData _ _ => .dlabClear
  | .stDll _ _ => .dlabSet
  | .stIer _ _ => .dlabClear
  | .stDlm _ _ => .dlabSet
  | .stFcr _ _ => .notExt
  | .stEfr _ _ => .ext
  | .stLcr _ _ => .always
  | .stMcr _ _ => .always
  | .stLsr _ _ => .always
  | .stMsr _ _ => .always
  | .stScr _ _ => .always
  | .stOow _ _ => .always
  | .tick => .always
  | .hostRx _ => .always
  | .construct => .always
  | .createLink _ => .always
  | .destroy => .always

/-- Why a presented operation resolves to no row. -/
inductive DecodeError
  /-- `length == 0` is outside the contract (20_memory.md R45, D5, U8). Safe: the model stops. -/
  | zeroLength
deriving DecidableEq, Repr

/-- The LOAD half of the decode algorithm (30_encoding.md R67). -/
def decodeLoad (lcr : Byte) (address length : Nat) : Instr :=
  match idx address with
  | 0 => if dlab lcr then .ldDll (laneOf address) length else .ldData (laneOf address) length
  | 1 => if dlab lcr then .ldDlm (laneOf address) length else .ldIer (laneOf address) length
  | 2 => if ext lcr then .ldEfr (laneOf address) length else .ldIir (laneOf address) length
  | 3 => .ldLcr (laneOf address) length
  | 4 => .ldMcr (laneOf address) length
  | 5 => .ldLsr (laneOf address) length
  | 6 => .ldMsr (laneOf address) length
  | 7 => .ldScr (laneOf address) length
  | _ => .ldOow address length

/-- The STORE half of the decode algorithm (30_encoding.md R67). -/
def decodeStore (lcr : Byte) (address : Nat) (data : List Byte) : Instr :=
  match idx address with
  | 0 => if dlab lcr then .stDll (laneOf address) data else .stData (laneOf address) data
  | 1 => if dlab lcr then .stDlm (laneOf address) data else .stIer (laneOf address) data
  | 2 => if ext lcr then .stEfr (laneOf address) data else .stFcr (laneOf address) data
  | 3 => .stLcr (laneOf address) data
  | 4 => .stMcr (laneOf address) data
  | 5 => .stLsr (laneOf address) data
  | 6 => .stMsr (laneOf address) data
  | 7 => .stScr (laneOf address) data
  | _ => .stOow address data

/-- The decode of every presented operation, given Line Control (30_encoding.md R67): total, and it rejects by name only
a bus access of length zero. -/
def decode (lcr : Byte) : Operation → Except DecodeError Instr
  | .load address length => if length = 0 then .error .zeroLength else .ok (decodeLoad lcr address length)
  | .store address data => if data = [] then .error .zeroLength else .ok (decodeStore lcr address data)
  | .tick => .ok .tick
  | .hostRx v => .ok (.hostRx v)
  | .construct => .ok .construct
  | .createLink path => .ok (.createLink path)
  | .destroy => .ok .destroy

/-- The address with this index and lane: three index bits, then the three ignored bits (30_encoding.md R68). -/
def rowAddress (index : Nat) (lane : Lane) : Nat := (index <<< Config.strideShift) + lane.toNat

/-- The operation an agent presents to reach a row: kind, address and operands (30_encoding.md R67, R68). -/
def encode : Instr → Operation
  | .ldData lane length => .load (rowAddress 0 lane) length
  | .ldDll lane length => .load (rowAddress 0 lane) length
  | .ldIer lane length => .load (rowAddress 1 lane) length
  | .ldDlm lane length => .load (rowAddress 1 lane) length
  | .ldIir lane length => .load (rowAddress 2 lane) length
  | .ldEfr lane length => .load (rowAddress 2 lane) length
  | .ldLcr lane length => .load (rowAddress 3 lane) length
  | .ldMcr lane length => .load (rowAddress 4 lane) length
  | .ldLsr lane length => .load (rowAddress 5 lane) length
  | .ldMsr lane length => .load (rowAddress 6 lane) length
  | .ldScr lane length => .load (rowAddress 7 lane) length
  | .ldOow address length => .load address length
  | .stData lane data => .store (rowAddress 0 lane) data
  | .stDll lane data => .store (rowAddress 0 lane) data
  | .stIer lane data => .store (rowAddress 1 lane) data
  | .stDlm lane data => .store (rowAddress 1 lane) data
  | .stFcr lane data => .store (rowAddress 2 lane) data
  | .stEfr lane data => .store (rowAddress 2 lane) data
  | .stLcr lane data => .store (rowAddress 3 lane) data
  | .stMcr lane data => .store (rowAddress 4 lane) data
  | .stLsr lane data => .store (rowAddress 5 lane) data
  | .stMsr lane data => .store (rowAddress 6 lane) data
  | .stScr lane data => .store (rowAddress 7 lane) data
  | .stOow address data => .store address data
  | .tick => .tick
  | .hostRx v => .hostRx v
  | .construct => .construct
  | .createLink path => .createLink path
  | .destroy => .destroy

/-- The kind of a bus row. -/
inductive BusKind
  | load | store
deriving DecidableEq, Repr

/-- One bus row of spec/opcode_table.json: `match` and `mask` over the address written as a 64-bit number, absent for the
two out-of-window rows, and the condition on Line Control (30_encoding.md R68). -/
structure BusRow where
  mnemonic : String
  kind : BusKind
  bits : Option (BitVec 64 × BitVec 64)
  cond : RowCond
deriving DecidableEq, Repr

/-- The twelve LOAD rows of spec/opcode_table.json. -/
def loadRows : List BusRow :=
  [ ⟨"LD.DATA", .load, some (0x00, 0xFFFFFFFFFFFFFFF8), .dlabClear⟩,
    ⟨"LD.DLL", .load, some (0x00, 0xFFFFFFFFFFFFFFF8), .dlabSet⟩,
    ⟨"LD.IER", .load, some (0x08, 0xFFFFFFFFFFFFFFF8), .dlabClear⟩,
    ⟨"LD.DLM", .load, some (0x08, 0xFFFFFFFFFFFFFFF8), .dlabSet⟩,
    ⟨"LD.IIR", .load, some (0x10, 0xFFFFFFFFFFFFFFF8), .notExt⟩,
    ⟨"LD.EFR", .load, some (0x10, 0xFFFFFFFFFFFFFFF8), .ext⟩,
    ⟨"LD.LCR", .load, some (0x18, 0xFFFFFFFFFFFFFFF8), .always⟩,
    ⟨"LD.MCR", .load, some (0x20, 0xFFFFFFFFFFFFFFF8), .always⟩,
    ⟨"LD.LSR", .load, some (0x28, 0xFFFFFFFFFFFFFFF8), .always⟩,
    ⟨"LD.MSR", .load, some (0x30, 0xFFFFFFFFFFFFFFF8), .always⟩,
    ⟨"LD.SCR", .load, some (0x38, 0xFFFFFFFFFFFFFFF8), .always⟩,
    ⟨"LD.OOW", .load, none, .always⟩ ]

/-- The twelve STORE rows of spec/opcode_table.json. -/
def storeRows : List BusRow :=
  [ ⟨"ST.DATA", .store, some (0x00, 0xFFFFFFFFFFFFFFF8), .dlabClear⟩,
    ⟨"ST.DLL", .store, some (0x00, 0xFFFFFFFFFFFFFFF8), .dlabSet⟩,
    ⟨"ST.IER", .store, some (0x08, 0xFFFFFFFFFFFFFFF8), .dlabClear⟩,
    ⟨"ST.DLM", .store, some (0x08, 0xFFFFFFFFFFFFFFF8), .dlabSet⟩,
    ⟨"ST.FCR", .store, some (0x10, 0xFFFFFFFFFFFFFFF8), .notExt⟩,
    ⟨"ST.EFR", .store, some (0x10, 0xFFFFFFFFFFFFFFF8), .ext⟩,
    ⟨"ST.LCR", .store, some (0x18, 0xFFFFFFFFFFFFFFF8), .always⟩,
    ⟨"ST.MCR", .store, some (0x20, 0xFFFFFFFFFFFFFFF8), .always⟩,
    ⟨"ST.LSR", .store, some (0x28, 0xFFFFFFFFFFFFFFF8), .always⟩,
    ⟨"ST.MSR", .store, some (0x30, 0xFFFFFFFFFFFFFFF8), .always⟩,
    ⟨"ST.SCR", .store, some (0x38, 0xFFFFFFFFFFFFFFF8), .always⟩,
    ⟨"ST.OOW", .store, none, .always⟩ ]

/-- A row applies when `address & mask == match` and its condition holds; an out-of-window row when
`address >> 3 >= 8` (30_encoding.md R68). The width 64 is "only a way of writing all higher bits" (R68): an address of
2^64 or more has a higher bit set and so matches no in-window row. -/
def BusRow.applies (r : BusRow) (address : Nat) (lcr : Byte) : Bool :=
  (match r.bits with
    | some (mtch, mask) => decide (address < 2 ^ 64) && (BitVec.ofNat 64 address &&& mask == mtch)
    | none => decide (Config.nIdx ≤ idx address)) && r.cond.holds lcr

/-- The operation a table word stands for: a one-byte LOAD at the address the word's bits spell, every bit above `nbits`
zero. The table gives bits to bus rows only, over the address, the same bits to a LOAD and a STORE (30_encoding.md R68),
so a word says neither the kind nor the data, and the LOAD is the kind that needs no data. Log 6. -/
def tableOperation (nbits w : Nat) : Operation := .load (w % 2 ^ nbits) 1

/-- What the decoder reads from a table word, Line Control being as the default reset leaves it (10_state.md R29). Log 6. -/
def decodeTableWord (nbits w : Nat) : Option Instr :=
  (decode Params.default.reset.lcr (tableOperation nbits w)).toOption

end Sys2Proof
end

