-- ==== Sys2Proof/Machine/Operands.lean ====
section
/-! DEFINITION. The operand forms of the block: the addressing mode derived from Line Control (10_state.md R22), the `in` and
`out` buffers (20_memory.md R44, R45), and the bus master's view of the window (20_memory.md R53, R54). -/

namespace Sys2Proof.Machine

/-- The three addressing modes. Never stored: "derived, not stored independently" (10_state.md R22). -/
inductive Mode
  | normal | divisor | extended
deriving DecidableEq, Repr

/-- The addressing mode a value of Line Control selects (10_state.md R22). -/
def modeOf (lcr : Byte) : Mode :=
  if ext lcr then .extended else if dlab lcr then .divisor else .normal

/-- The next `n` free bytes: lanes the block does not drive (D4). Log 7. -/
def freeBytes (n : Nat) (s : State) : List Byte :=
  (List.range n).map fun k => Config.freeByte (s.draws + k)

/-- The `out` buffer of a successful LOAD: `out[0] = b`, the other lanes not driven (40_load.md R80, 20_memory.md R45). -/
def outBuffer (length : Nat) (b : Byte) (s : State) : List Byte :=
  b :: freeBytes (length - 1) s

/-- The bus address as a window offset: the bus subtracts UART_BASE before presenting an access, and an address below it is
not routed to the block (20_memory.md R53). Log 19. -/
def windowOffset (busAddress : Nat) : Option Nat :=
  if Config.uartBase ≤ busAddress then some (busAddress - Config.uartBase) else none

/-- `MemRead(addr, n)` (20_memory.md R53). -/
def memRead (busAddress n : Nat) : Option Operation :=
  (windowOffset busAddress).map fun off => .load off n

/-- `MemWrite(addr, n, v)` (20_memory.md R53). -/
def memWrite (busAddress : Nat) (data : List Byte) : Option Operation :=
  (windowOffset busAddress).map fun off => .store off data

/-- An instruction fetch the bus presents to the block is a LOAD with all its side effects (20_memory.md R54, D12). -/
def memFetch (busAddress n : Nat) : Option Operation := memRead busAddress n

end Sys2Proof.Machine
end

