-- ==== Sys2Proof/Machine/Ops.lean ====
section
/-! DEFINITION. The shared operations: the channel primitives (42_tick_and_host.md R121 to R123), the ways an operation
returns (40_load.md R80, 41_store.md R100, 60_exceptions.md R152), a fatal error (R153), and the forms all rows of one kind
share (40_load.md R80, 41_store.md R100, 10_state.md R31). -/

namespace Sys2Proof.Machine

/-- `ChanReady()`: at least one byte can be read now; changes nothing (42_tick_and_host.md R121). -/
def chanReady (s : State) : Bool := !s.rx.isEmpty

/-- `ChanRecv()`: removes and returns the oldest unconsumed byte, or returns none and changes nothing
(42_tick_and_host.md R122). -/
def chanRecv (s : State) : Option Byte × State := (s.rx.head?, { s with rx := s.rx.tail })

/-- `ChanSend(b)`: the byte at the end of `tx`; none when the environment does not take it (42_tick_and_host.md R123). -/
def chanSend (b : Byte) (s : State) : Option State :=
  if s.answers.txAccept then some { s with tx := s.tx ++ [b] } else none

/-- Write one register, all eight bits (41_store.md R100, "write straight through"): `r` is the register file after it. -/
def withReg (r : Regs) (s : State) : State := { s with reg := r }

/-- An operation without a result ends normally. -/
def returnDone (s : State) : State := { s with response := .done }

/-- `return ok(b)`: the LOAD succeeds with `out[0] = b` (40_load.md R80). -/
def returnLoad (length : Nat) (b : Byte) (s : State) : State :=
  { s with response := .loadOk (outBuffer length b s), draws := s.draws + (length - 1) }

/-- `return fail` of a LOAD: `out` is not written at all (40_load.md R92). -/
def returnLoadFail (length : Nat) (s : State) : State :=
  { s with response := .loadFail .outOfWindow (freeBytes length s), draws := s.draws + length }

/-- `return ok` of a STORE (41_store.md R100). -/
def returnStore (s : State) : State := { s with response := .storeOk }

/-- `return fail` of a STORE (41_store.md R112). -/
def returnStoreFail (s : State) : State := { s with response := .storeFail .outOfWindow }

/-- `raise <Fatal>`: the operation does not complete, the condition is reported to the lifecycle owner, and the device is
unusable from then on, `life <- dead` (60_exceptions.md R153). Log 8. -/
def raiseFatal (error : Fatal) (s : State) : State := { s with life := .dead, response := .fatal error }

/-- Record what has been done on the host. Log 14. -/
def logHost (actions : List HostAction) (s : State) : State := { s with hostLog := s.hostLog ++ actions }

/-- Eleven free bytes in place of the registers of a device that is gone: "no register value survives"
(42_tick_and_host.md R128). Log 12. -/
def loseRegisters (s : State) : State :=
  { s with
    reg :=
      { ier := Config.freeByte s.draws, iir := Config.freeByte (s.draws + 1), fcr := Config.freeByte (s.draws + 2),
        efr := Config.freeByte (s.draws + 3), lcr := Config.freeByte (s.draws + 4), mcr := Config.freeByte (s.draws + 5),
        lsr := Config.freeByte (s.draws + 6), msr := Config.freeByte (s.draws + 7), scr := Config.freeByte (s.draws + 8),
        dll := Config.freeByte (s.draws + 9), dlm := Config.freeByte (s.draws + 10) }
    draws := s.draws + 11 }

/-- An operation defined only while the device is live (10_state.md R31). -/
def whileLive (s : State) (act : State → State) : Host.Outcome State Fault Refusal :=
  if s.life = .live then .next (act s) else .refused .notLive

/-- What every LOAD row shares (40_load.md R80): defined while live, `length >= 1`, `here` is the row's place in the decode
(30_encoding.md R67), and `row` gives the byte it returns and the state it leaves. -/
def loadRow (here : Bool) (length : Nat) (s : State) (row : State → Byte × State) :
    Host.Outcome State Fault Refusal :=
  if s.life ≠ .live then .refused .notLive
  else if length = 0 then .refused .zeroLength
  else if here = false then .refused .otherRow
  else .next (returnLoad length (row s).1 (row s).2)

/-- What every STORE row shares (41_store.md R100): defined while live, `length >= 1`, only `in[0]` is used, `here` is the
row's place in the decode (30_encoding.md R67), and `row` gives the state the STORE of `in[0]` leaves. -/
def storeRow (here : Bool) (data : List Byte) (s : State) (row : Byte → State → State) :
    Host.Outcome State Fault Refusal :=
  if s.life ≠ .live then .refused .notLive
  else
    match data with
    | [] => .refused .zeroLength
    | v :: _ => if here = false then .refused .otherRow else .next (row v s)

/-- Take the oldest presented operation off the queue and latch the host's answers to it. Logs 2 and 3. -/
def takePresented (p : Presented) (rest : List Presented) (s : State) : State :=
  { s with pending := rest, answers := p.answers }

/-- The refusal a decoding error becomes (20_memory.md R45). -/
def refusalOf : DecodeError → Refusal
  | .zeroLength => .zeroLength

/-- Present an operation so that it is the very next one to run, the host answering positively. -/
def present (op : Operation) (s : State) : State :=
  { s with pending := ⟨op, HostAnswers.accepting⟩ :: s.pending }

/-- Present a sequence of operations, the host answering positively to each. -/
def presentAll (ops : List Operation) (s : State) : State :=
  { s with pending := ops.map (fun op => ⟨op, HostAnswers.accepting⟩) ++ s.pending }

end Sys2Proof.Machine
end

