-- ==== Sys2Proof/Machine/Lifecycle.lean ====
section
/-! DEFINITION. CONSTRUCT, CREATE_LINK and DESTROY (42_tick_and_host.md R126 to R128; 70_reset_and_hazards.md R180, R181). -/

namespace Sys2Proof.Machine

/-- The device a successful CONSTRUCT leaves: every register at its RESET_* value, the channel empty both ways, no link,
live (R180, 10_state.md R29). Log 17. -/
def constructed (s : State) : State :=
  { s with reg := s.params.reset, rx := [], tx := [], linkPath := none, life := .live }

/-- `CONSTRUCT` (R126): open the channel, configure it raw, reset. No second CONSTRUCT exists (U14). -/
def execConstruct (s : State) : Host.Outcome State Fault Refusal :=
  if s.life ≠ .unbuilt then .refused .notUnbuilt
  else
    match s.answers.construct with
    | .ok => .next (returnDone (constructed (logHost [.channelOpened, .channelConfiguredRaw] s)))
    | .allocFailed => .next (raiseFatal .channelAllocFailed s)
    | .configFailed => .next (raiseFatal .channelConfigFailed (logHost [.channelOpened] s))

/-- `CREATE_LINK` (R127): a no-op for an empty path or once a link exists; else remove what stands at the path, create the
link, remember the path. -/
def execCreateLink (path : String) (s : State) : Host.Outcome State Fault Refusal :=
  whileLive s fun s =>
    if path = "" ∨ s.linkPath ≠ none then returnDone s
    else
      match s.answers.link with
      | .ok => returnDone { logHost [.objectRemovedAt path, .linkCreatedAt path] s with linkPath := some path }
      | .resolveFailed true => raiseFatal .linkResolveFailed (logHost [.objectRemovedAt path] s)
      | .resolveFailed false => raiseFatal .linkResolveFailed s
      | .removeFailed => raiseFatal .linkCreateFailed s
      | .createFailed => raiseFatal .linkCreateFailed (logHost [.objectRemovedAt path] s)

/-- What DESTROY has done on the host, each part best effort (R128). -/
def teardownActions (s : State) : List HostAction :=
  (if s.answers.channelClosed then [.channelClosed] else []) ++
    (match s.linkPath with
      | some path => if s.answers.linkRemoved then [.linkRemovedAt path] else []
      | none => [])

/-- `DESTROY` (R128): close the channel, remove the link if one was created, `life <- dead`; no register value survives, the
bytes in `rx` are lost, `tx` stands. Refused while the device is not live (30_encoding.md R69, D15), so a dead device is
unharmed by it (log 11). -/
def execDestroy (s : State) : Host.Outcome State Fault Refusal :=
  whileLive s fun s =>
    returnDone { loseRegisters (logHost (teardownActions s) s) with rx := [], life := .dead }

end Sys2Proof.Machine
end

