-- ==== Sys2Proof/Machine/Load.lean ====
section
/-! DEFINITION. The twelve LOAD rows (40_load.md R81 to R92). The byte lane of an in-window address is ignored
(20_memory.md R43). -/

namespace Sys2Proof.Machine

/-- `LD.DATA` (R81): receive one byte, or `0x00` when the channel is empty. -/
def execLdData (_lane : Lane) (length : Nat) (s : State) : Host.Outcome State Fault Refusal :=
  loadRow (!dlab s.reg.lcr) length s fun s => ((chanRecv s).1.getD 0x00, (chanRecv s).2)

/-- `LD.IIR` (R85): the value before the side effect, then `ClearIrq()`. -/
def execLdIir (_lane : Lane) (length : Nat) (s : State) : Host.Outcome State Fault Refusal :=
  loadRow (!ext s.reg.lcr) length s fun s => (s.reg.iir, clearIrq s)

/-- `LD.LSR` (R89): recompute, write back, return. -/
def execLdLsr (_lane : Lane) (length : Nat) (s : State) : Host.Outcome State Fault Refusal :=
  loadRow true length s fun s =>
    (lineStatus s.reg.lsr (chanReady s), withReg { s.reg with lsr := lineStatus s.reg.lsr (chanReady s) } s)

/-- `LD.DLL` (R82): return `reg.dll`. The channel is not polled. -/
def execLdDll (_lane : Lane) (length : Nat) (s : State) : Host.Outcome State Fault Refusal :=
  loadRow (dlab s.reg.lcr) length s fun s => (s.reg.dll, s)

/-- `LD.IER` (R83): return `reg.ier`. -/
def execLdIer (_lane : Lane) (length : Nat) (s : State) : Host.Outcome State Fault Refusal :=
  loadRow (!dlab s.reg.lcr) length s fun s => (s.reg.ier, s)

/-- `LD.DLM` (R84): return `reg.dlm`. -/
def execLdDlm (_lane : Lane) (length : Nat) (s : State) : Host.Outcome State Fault Refusal :=
  loadRow (dlab s.reg.lcr) length s fun s => (s.reg.dlm, s)

/-- `LD.EFR` (R86): return `reg.efr`. The flag is not cleared. -/
def execLdEfr (_lane : Lane) (length : Nat) (s : State) : Host.Outcome State Fault Refusal :=
  loadRow (ext s.reg.lcr) length s fun s => (s.reg.efr, s)

/-- `LD.LCR` (R87): return `reg.lcr`. -/
def execLdLcr (_lane : Lane) (length : Nat) (s : State) : Host.Outcome State Fault Refusal :=
  loadRow true length s fun s => (s.reg.lcr, s)

/-- `LD.MCR` (R88): return `reg.mcr`. -/
def execLdMcr (_lane : Lane) (length : Nat) (s : State) : Host.Outcome State Fault Refusal :=
  loadRow true length s fun s => (s.reg.mcr, s)

/-- `LD.MSR` (R90): return `reg.msr`. No rule ever writes it. -/
def execLdMsr (_lane : Lane) (length : Nat) (s : State) : Host.Outcome State Fault Refusal :=
  loadRow true length s fun s => (s.reg.msr, s)

/-- `LD.SCR` (R91): return `reg.scr`. -/
def execLdScr (_lane : Lane) (length : Nat) (s : State) : Host.Outcome State Fault Refusal :=
  loadRow true length s fun s => (s.reg.scr, s)

/-- `LD.OOW` (R92): `return fail`; no register changes, the channel is not polled, `out` is not written. -/
def execLdOow (address length : Nat) (s : State) : Host.Outcome State Fault Refusal :=
  if s.life ≠ .live then .refused .notLive
  else if length = 0 then .refused .zeroLength
  else if idx address < Config.nIdx then .refused .otherRow
  else .next (returnLoadFail length s)

end Sys2Proof.Machine
end

