-- ==== Sys2Proof/Machine/Store.lean ====
section
/-! DEFINITION. The twelve STORE rows (41_store.md R101 to R112). The byte lane of an in-window address is ignored
(20_memory.md R43). -/

namespace Sys2Proof.Machine

/-- `ST.DATA` (R101): transmit one byte; only if the send succeeded, raise the flag when the enable is set. A refused
byte is the fatal `TxShortWrite` (42_tick_and_host.md R123). -/
def execStData (_lane : Lane) (data : List Byte) (s : State) : Host.Outcome State Fault Refusal :=
  storeRow (!dlab s.reg.lcr) data s fun v s =>
    match chanSend v s with
    | some sent => returnStore (raiseIrqWhen (trigEnabled sent) sent)
    | none => raiseFatal .txShortWrite s

/-- `ST.DLL` (R102): `reg.dll <- v`. -/
def execStDll (_lane : Lane) (data : List Byte) (s : State) : Host.Outcome State Fault Refusal :=
  storeRow (dlab s.reg.lcr) data s fun v s => returnStore (withReg { s.reg with dll := v } s)

/-- `ST.IER` (R103): `reg.ier <- v`. The flag does not change in either direction. -/
def execStIer (_lane : Lane) (data : List Byte) (s : State) : Host.Outcome State Fault Refusal :=
  storeRow (!dlab s.reg.lcr) data s fun v s => returnStore (withReg { s.reg with ier := v } s)

/-- `ST.DLM` (R104): `reg.dlm <- v`. -/
def execStDlm (_lane : Lane) (data : List Byte) (s : State) : Host.Outcome State Fault Refusal :=
  storeRow (dlab s.reg.lcr) data s fun v s => returnStore (withReg { s.reg with dlm := v } s)

/-- `ST.FCR` (R105): `reg.fcr <- v`. No FIFO is reset, `reg.iir` is not written. -/
def execStFcr (_lane : Lane) (data : List Byte) (s : State) : Host.Outcome State Fault Refusal :=
  storeRow (!ext s.reg.lcr) data s fun v s => returnStore (withReg { s.reg with fcr := v } s)

/-- `ST.EFR` (R106): `reg.efr <- v`. -/
def execStEfr (_lane : Lane) (data : List Byte) (s : State) : Host.Outcome State Fault Refusal :=
  storeRow (ext s.reg.lcr) data s fun v s => returnStore (withReg { s.reg with efr := v } s)

/-- `ST.LCR` (R107): `reg.lcr <- v`. The addressing mode of every later operation is that of the new value. -/
def execStLcr (_lane : Lane) (data : List Byte) (s : State) : Host.Outcome State Fault Refusal :=
  storeRow true data s fun v s => returnStore (withReg { s.reg with lcr := v } s)

/-- `ST.MCR` (R108): `reg.mcr <- v`. -/
def execStMcr (_lane : Lane) (data : List Byte) (s : State) : Host.Outcome State Fault Refusal :=
  storeRow true data s fun v s => returnStore (withReg { s.reg with mcr := v } s)

/-- `ST.SCR` (R111): `reg.scr <- v`. -/
def execStScr (_lane : Lane) (data : List Byte) (s : State) : Host.Outcome State Fault Refusal :=
  storeRow true data s fun v s => returnStore (withReg { s.reg with scr := v } s)

/-- `ST.LSR` (R109): accepted and discarded. -/
def execStLsr (_lane : Lane) (data : List Byte) (s : State) : Host.Outcome State Fault Refusal :=
  storeRow true data s fun _ s => returnStore s

/-- `ST.MSR` (R110): accepted and discarded. -/
def execStMsr (_lane : Lane) (data : List Byte) (s : State) : Host.Outcome State Fault Refusal :=
  storeRow true data s fun _ s => returnStore s

/-- `ST.OOW` (R112): `return fail`; nothing changes, nothing is transmitted. -/
def execStOow (address : Nat) (data : List Byte) (s : State) : Host.Outcome State Fault Refusal :=
  storeRow (decide (Config.nIdx ≤ idx address)) data s fun _ s => returnStoreFail s

end Sys2Proof.Machine
end

