-- ==== Sys2Proof/Machine/Tick.lean ====
section
/-! DEFINITION. TICK and HOST.RX (42_tick_and_host.md R120, R124). -/

namespace Sys2Proof.Machine

/-- `TICK` (R120): raise the flag when the enable is set and the channel has data; consumes nothing, never clears. -/
def execTick (s : State) : Host.Outcome State Fault Refusal :=
  whileLive s fun s => returnDone (raiseIrqWhen (trigEnabled s && chanReady s) s)

/-- `HOST.RX` (R124): `rx <- rx ++ [v]`; no flag is raised by the arrival. -/
def execHostRx (v : Byte) (s : State) : Host.Outcome State Fault Refusal :=
  whileLive s fun s => returnDone { s with rx := s.rx ++ [v] }

end Sys2Proof.Machine
end

