-- ==== Sys2Proof/Machine/Dispatch.lean ====
section
/-! DEFINITION. The dispatch: one arm per row of the operation map (30_encoding.md R67). -/

namespace Sys2Proof.Machine

/-- The meaning of a resolved operation. -/
def exec (i : Instr) (s : State) : Host.Outcome State Fault Refusal :=
    match i with
    | .ldData lane length => Sys2Proof.Machine.execLdData lane length s
    | .ldDll lane length => Sys2Proof.Machine.execLdDll lane length s
    | .ldIer lane length => Sys2Proof.Machine.execLdIer lane length s
    | .ldDlm lane length => Sys2Proof.Machine.execLdDlm lane length s
    | .ldIir lane length => Sys2Proof.Machine.execLdIir lane length s
    | .ldEfr lane length => Sys2Proof.Machine.execLdEfr lane length s
    | .ldLcr lane length => Sys2Proof.Machine.execLdLcr lane length s
    | .ldMcr lane length => Sys2Proof.Machine.execLdMcr lane length s
    | .ldLsr lane length => Sys2Proof.Machine.execLdLsr lane length s
    | .ldMsr lane length => Sys2Proof.Machine.execLdMsr lane length s
    | .ldScr lane length => Sys2Proof.Machine.execLdScr lane length s
    | .ldOow address length => Sys2Proof.Machine.execLdOow address length s
    | .stData lane data => Sys2Proof.Machine.execStData lane data s
    | .stDll lane data => Sys2Proof.Machine.execStDll lane data s
    | .stIer lane data => Sys2Proof.Machine.execStIer lane data s
    | .stDlm lane data => Sys2Proof.Machine.execStDlm lane data s
    | .stFcr lane data => Sys2Proof.Machine.execStFcr lane data s
    | .stEfr lane data => Sys2Proof.Machine.execStEfr lane data s
    | .stLcr lane data => Sys2Proof.Machine.execStLcr lane data s
    | .stMcr lane data => Sys2Proof.Machine.execStMcr lane data s
    | .stLsr lane data => Sys2Proof.Machine.execStLsr lane data s
    | .stMsr lane data => Sys2Proof.Machine.execStMsr lane data s
    | .stScr lane data => Sys2Proof.Machine.execStScr lane data s
    | .stOow address data => Sys2Proof.Machine.execStOow address data s
    | .tick => Sys2Proof.Machine.execTick s
    | .hostRx v => Sys2Proof.Machine.execHostRx v s
    | .construct => Sys2Proof.Machine.execConstruct s
    | .createLink path => Sys2Proof.Machine.execCreateLink path s
    | .destroy => Sys2Proof.Machine.execDestroy s

end Sys2Proof.Machine
end

