-- ==== Sys2Proof/Machine/Step.lean ====
section
/-! DEFINITION. One step: the block does one operation when an agent presents one and is otherwise inert
(10_state.md R27). -/

namespace Sys2Proof.Machine

/-- One step (20_memory.md R47, R50): the oldest presented operation is decoded with the value `reg.lcr` has at its start
(30_encoding.md R66, R67) and runs to its end. With nothing presented the block is idle and "all state survives any length
of idleness" (60_exceptions.md R168). Logs 2 and 25. -/
def step (s : State) : Host.Outcome State Fault Refusal :=
  match s.pending with
  | [] => .next s
  | p :: rest =>
    match decode s.reg.lcr p.op with
    | .ok i => exec i (takePresented p rest s)
    | .error e => .refused (refusalOf e)

/-- The state in which the operation a table word stands for is the very next to run (log 6). -/
def State.withFetchWord (s : State) (nbits w : Nat) : State := present (tableOperation nbits w) s

end Sys2Proof.Machine
end

