-- ==== Sys2Proof/Machine/Pseudo.lean ====
section
/-! DEFINITION. The pseudo-operations of 30_encoding.md R72, each a fixed expansion (decision D17). -/

namespace Sys2Proof.Machine

/-- `SETDIV d`, restoring the line-control value `c` (R72). -/
def setDiv (d : BitVec 16) (c : Byte) : List Operation :=
  [.store 24 [0x80 ||| c], .store 0 [d.extractLsb' 0 8], .store 8 [d.extractLsb' 8 8], .store 24 [c]]

/-- `EFRWR v`, restoring the line-control value `c` (R72). -/
def efrWr (v c : Byte) : List Operation := [.store 24 [0xBF], .store 16 [v], .store 24 [c]]

/-- `PUTC v`, with DLAB clear (R72). -/
def putC (v : Byte) : List Operation := [.store 0 [v]]

/-- `ACK`, with LCR not `0xBF` (R72). -/
def ackIrq : List Operation := [.load 16 1]

/-- Whether a response is a LOAD's success with bit 0 of `out[0]` set. -/
def reportsReady : Response → Bool
  | .loadOk (b :: _) => b.getLsbD Config.lsrDrBit
  | _ => false

/-- `GETC`: `LD 40` then, when bit 0 of the result is 1, `LD 0` (R72). -/
def getC (s : State) : Host.Outcome State Fault Refusal :=
  match step (present (.load 40 1) s) with
  | .next t => if reportsReady t.response then step (present (.load 0 1) t) else .next t
  | .fault r => .fault r
  | .refused r => .refused r

end Sys2Proof.Machine
end

