-- ==== Sys2Proof/Safety.lean ====
section
/-! DEFINITION. What a safe run is, in the terms the statements use: the invariants of 10_state.md R32, the relations between
two states that differ only in what cannot be observed, and running to the end without a refusal. -/

namespace Sys2Proof.Machine

/-- The parts of the register file that no rule ever moves from their reset value, and the stored Line Status bits 5 and 6
(10_state.md R32 (5) and (7)). -/
def fixedParts (p : Params) (r : Regs) : Prop :=
  r.msr = p.reset.msr ∧
  r.iir &&& 0xFE = p.reset.iir &&& 0xFE ∧
  r.lsr &&& 0x9E = p.reset.lsr &&& 0x9E ∧
  (p.reset.lsr &&& 0x60 = 0x60 → r.lsr &&& 0x60 = 0x60)

/-- The invariant of 10_state.md R32 (3), (5), (7): a live device keeps the fixed parts, and a link path is never empty (R25). -/
def State.Inv (s : State) : Prop :=
  (s.life = .live → fixedParts s.params s.reg) ∧ s.linkPath ≠ some ""

/-- Two states that differ at most in what software cannot observe at all: `reg.fcr` and the stored copies of Line Status
bits 0, 5 and 6 (70_reset_and_hazards.md R182). -/
def SameButUnobservable (s t : State) : Prop :=
  t = { s with reg := { s.reg with fcr := t.reg.fcr, lsr := t.reg.lsr } } ∧ t.reg.lsr &&& 0x9E = s.reg.lsr &&& 0x9E

/-- Two responses that are equal, or are successful LOADs that differ in `out[0]` only. -/
def SameButFirstByte (x y : Response) : Prop :=
  x = y ∨ ∃ b c rest, x = .loadOk (b :: rest) ∧ y = .loadOk (c :: rest)

/-- Two states that differ at most in the registers without function, EFR, FCR, MCR, SCR, DLL and DLM
(92_eei_decisions.md D18), and in the byte the last LOAD returned. -/
def SameButFunctionless (s t : State) : Prop :=
  t = { s with
    reg := { s.reg with efr := t.reg.efr, fcr := t.reg.fcr, mcr := t.reg.mcr, scr := t.reg.scr, dll := t.reg.dll,
                        dlm := t.reg.dlm }
    response := t.response } ∧
  SameButFirstByte s.response t.response

/-- The rows that return a register without function. FCR is write-only: no row returns it (10_state.md R14). -/
def readsFunctionless : Instr → Bool
  | .ldDll _ _ => true
  | .ldDlm _ _ => true
  | .ldEfr _ _ => true
  | .ldMcr _ _ => true
  | .ldScr _ _ => true
  | _ => false

/-- Two outcomes that are the same but for a relation between the next states. -/
def OutcomesRelated (r : State → State → Prop) :
    Host.Outcome State Fault Refusal → Host.Outcome State Fault Refusal → Prop
  | .next s, .next t => r s t
  | .refused a, .refused b => a = b
  | .fault a, .fault b => a = b
  | _, _ => False

/-- A LOAD of `length` bytes answers `b` in `out[0]` and leaves the state `t`: `out` has `length` bytes, of which the block
drives the first only; the others are free, one draw each (40_load.md R80; 20_memory.md R45, D4; log 7). -/
def ReturnsByte (length : Nat) (b : Byte) (t : State) (o : Host.Outcome State Fault Refusal) : Prop :=
  ∃ rest : List Byte, rest.length + 1 = length ∧
    o = .next { t with response := .loadOk (b :: rest), draws := t.draws + rest.length }

/-- Two LOADs ended alike: both succeeded with the same `out[0]`, or both failed (20_memory.md R45). -/
def SameAnswer (s t : State) : Prop :=
  (∃ b x y, s.response = .loadOk (b :: x) ∧ t.response = .loadOk (b :: y)) ∨
  (∃ w x y, s.response = .loadFail w x ∧ t.response = .loadFail w y)

/-- `k` steps of the machine, stopping at the first refusal. -/
def runSteps (k : Nat) (s : State) : Host.Outcome State Fault Refusal := Host.Core.run Sys2Proof.core k s

/-- A run of `k` steps ends in a state: nothing was refused. -/
def SafeRun (k : Nat) (s t : State) : Prop := runSteps k s = .next t

/-- An operation that leaves a live device live whenever the host accepts: a bus access of at least one byte, TICK, HOST.RX
or CREATE_LINK. -/
def keepsLive : Operation → Bool
  | .construct => false
  | .destroy => false
  | op => op.inContract

end Sys2Proof.Machine
end

