-- ==== Sys2Proof/Certificates/Slice0/Obligations.lean ====
section
/-! DEFINITION. The statements for the provers, each after a rule of the spec. A statement that rests on a decision the spec
marks as its own, or on a choice of the model, says so. -/

open Sys2Proof Sys2Proof.Machine

/-- State.reset is what CONSTRUCT leaves on the unbuilt device with the default parameters: every register 0x00 but IIR 0x01 and LSR 0x60, rx and tx empty, no link, life live, mode NORMAL, raise paths disabled, no interrupt pending. The values are the defaults of the spec's own decision D2 (log 4); what the model's own fields hold, among them the record of host actions, is the model's choice (logs 14 and 24).
Rests on R29, R180, 92_eei_decisions.md D1, D2. -/
def Obligations.ResetLeavesDefaultValues : Prop :=
  State.reset.reg = { ier := 0x00, iir := 0x01, fcr := 0x00, efr := 0x00, lcr := 0x00, mcr := 0x00, lsr := 0x60, msr := 0x00,
                      scr := 0x00, dll := 0x00, dlm := 0x00 } ∧
  State.reset.rx = [] ∧ State.reset.tx = [] ∧ State.reset.linkPath = none ∧ State.reset.life = .live ∧
  modeOf State.reset.reg.lcr = .normal ∧ trigEnabled State.reset = false ∧ irqOut State.reset = false ∧
  exec .construct State.unbuilt = .next State.reset

/-- On an unbuilt device, for every value of the RESET_* parameters: a CONSTRUCT whose channel is allocated and configured sets every register to its parameter, empties rx and tx, sets no link and life live, having opened the channel and configured it raw; one whose channel cannot be allocated or configured ends in the fatal ChannelAllocFailed or ChannelConfigFailed with life dead. On a live or dead device CONSTRUCT is refused (U14). The RESET_* values are the spec's own decision D2 (log 4); that rx is empty whatever stood there is the model's reading (log 17), the record of host actions its own (log 14).
Rests on R126, R29, R180, 92_eei_decisions.md D2, 93_implementation_defined.md U14. -/
def Obligations.ConstructLeavesResetParameters : Prop :=
  ∀ s : State,
    (s.life = .unbuilt → s.answers.construct = .ok →
      exec .construct s = .next { s with
        reg := s.params.reset, rx := [], tx := [], linkPath := none, life := .live, response := .done,
        hostLog := s.hostLog ++ [.channelOpened, .channelConfiguredRaw] }) ∧
    (s.life = .unbuilt → s.answers.construct = .allocFailed →
      ∃ t, exec .construct s = .next t ∧ t.life = .dead ∧ t.response = .fatal .channelAllocFailed) ∧
    (s.life = .unbuilt → s.answers.construct = .configFailed →
      ∃ t, exec .construct s = .next t ∧ t.life = .dead ∧ t.response = .fatal .channelConfigFailed) ∧
    (s.life ≠ .unbuilt → exec .construct s = .refused .notUnbuilt)

/-- On a live device, CREATE_LINK with an empty path, or once a link exists, changes nothing but the response; with a non-empty path, no link yet and a host that can make it, it removes what stands at the path, creates the link and sets link_path to the path, and nothing else changes. The record of host actions is the model's (log 14).
Rests on R25, R127. -/
def Obligations.CreateLinkTakesFirstPathOnly : Prop :=
  ∀ (path : String) (s : State), s.life = .live →
    (path = "" ∨ s.linkPath ≠ none → exec (.createLink path) s = .next { s with response := .done }) ∧
    (path ≠ "" → s.linkPath = none → s.answers.link = .ok →
      exec (.createLink path) s = .next { s with
        linkPath := some path, response := .done,
        hostLog := s.hostLog ++ [.objectRemovedAt path, .linkCreatedAt path] })

/-- On a live device without a link, for a non-empty path: when the endpoint name cannot be resolved the fatal LinkResolveFailed is reported, when the object at the path cannot be removed or the link cannot be created LinkCreateFailed is; link_path stays none, life becomes dead, no register, rx or tx changes (spec decision D20).
Rests on R127, R151, R153, 92_eei_decisions.md D20. -/
def Obligations.CreateLinkFailureKillsDevice : Prop :=
  ∀ (path : String) (s : State), s.life = .live → path ≠ "" → s.linkPath = none → s.answers.link ≠ .ok →
    ∃ t, exec (.createLink path) s = .next t ∧ t.life = .dead ∧ t.linkPath = none ∧ t.reg = s.reg ∧ t.rx = s.rx ∧ t.tx = s.tx ∧
      ((∃ removed, s.answers.link = .resolveFailed removed) → t.response = .fatal .linkResolveFailed) ∧
      (s.answers.link = .removeFailed ∨ s.answers.link = .createFailed → t.response = .fatal .linkCreateFailed)

/-- On a live device DESTROY ends with life dead whatever the host answers: rx is lost, tx stands, link_path, parameters and presented operations are as before, and the record of host actions gains, in this order, the closing of the channel and the removal of the link if one was created, each only where the host did it (best effort; that record and its order are the model's, log 14). The registers are left open (the model's reading of "no register value survives", and link_path is its choice, log 12). On a dead or unbuilt device DESTROY is refused (spec decision D15; with R128's "harmless when dead" read as leaving it unharmed, logs 11 and 13).
Rests on R128, R181, R69, 92_eei_decisions.md D15. -/
def Obligations.DestroyEndsLife : Prop :=
  ∀ s : State,
    (s.life = .live → ∃ t, exec .destroy s = .next t ∧ t.life = .dead ∧ t.rx = [] ∧ t.tx = s.tx ∧ t.linkPath = s.linkPath ∧
      t.params = s.params ∧ t.pending = s.pending ∧ t.answers = s.answers ∧ t.response = .done ∧
      t.hostLog = s.hostLog ++ (if s.answers.channelClosed then [.channelClosed] else []) ++
        (match s.linkPath with
          | some path => if s.answers.linkRemoved then [.linkRemovedAt path] else []
          | none => [])) ∧
    (s.life ≠ .live → exec .destroy s = .refused .notLive)

/-- While the device is not live, every operation but CONSTRUCT is refused, DESTROY with them; CONSTRUCT is refused on a live or dead device (spec decision D15). That an ill-formed row and a row out of its mode are refused for the life first is the model's order (log 9); DESTROY on a dead device is log 11, before construction log 13.
Rests on R31, R69, 93_implementation_defined.md U9, U14, 92_eei_decisions.md D15. -/
def Obligations.OperationsOutsideLifeRefused : Prop :=
  ∀ (i : Instr) (s : State),
    (s.life ≠ .live → i ≠ .construct → exec i s = .refused .notLive) ∧
    (s.life ≠ .unbuilt → exec .construct s = .refused .notUnbuilt)

/-- On a live device HOST.RX(v) puts v at the end of rx; no register, in particular not the interrupt-pending flag, tx or anything else changes but the response.
Rests on R124, 92_eei_decisions.md D6. -/
def Obligations.HostRxAppendsByte : Prop :=
  ∀ (v : Byte) (s : State), s.life = .live →
    exec (.hostRx v) s = .next { s with rx := s.rx ++ [v], response := .done }

/-- On a live device, for either position of the enable bit: with the enable set and a byte waiting, TICK sets IIR to its value with bit 0 clear and bits 7:1 kept; otherwise no register changes. Nothing is consumed or transmitted.
Rests on R120, R155, 92_eei_decisions.md D1. -/
def Obligations.TickRaisesFlagWhenDataWaits : Prop :=
  ∀ s : State, s.life = .live →
    (s.reg.ier.getLsbD s.params.ierTrigBit.val = true → s.rx ≠ [] →
      ∃ v : Byte, v.getLsbD 0 = false ∧ (∀ k, 1 ≤ k → v.getLsbD k = s.reg.iir.getLsbD k) ∧
        exec .tick s = .next { s with reg := { s.reg with iir := v }, response := .done }) ∧
    (s.reg.ier.getLsbD s.params.ierTrigBit.val = false ∨ s.rx = [] →
      exec .tick s = .next { s with response := .done })

/-- On a live device with LCR bit 7 clear, for any lane and any length of at least 1: with rx = b :: rest the LOAD returns b and leaves rx = rest; with rx empty it returns 0x00; no register, tx or anything else changes.
Formalises R81. -/
def Obligations.LoadDataReceivesOldestByte : Prop :=
  ∀ (lane : Lane) (length : Nat) (s : State), s.life = .live → 1 ≤ length → s.reg.lcr.getLsbD 7 = false →
    (∀ b rest, s.rx = b :: rest → ReturnsByte length b { s with rx := rest } (exec (.ldData lane length) s)) ∧
    (s.rx = [] → ReturnsByte length 0x00 s (exec (.ldData lane length) s))

/-- On a live device, in the row's addressing mode, for any lane and any length of at least 1, each of the seven LOADs returns all eight bits of its register; no register, flag, rx or tx changes.
Formalises R82, R83, R84, R86, R87, R88, R91. -/
def Obligations.RegisterLoadsReturnRegister : Prop :=
  ∀ (lane : Lane) (length : Nat) (s : State), s.life = .live → 1 ≤ length →
    (s.reg.lcr.getLsbD 7 = true → ReturnsByte length s.reg.dll s (exec (.ldDll lane length) s)) ∧
    (s.reg.lcr.getLsbD 7 = false → ReturnsByte length s.reg.ier s (exec (.ldIer lane length) s)) ∧
    (s.reg.lcr.getLsbD 7 = true → ReturnsByte length s.reg.dlm s (exec (.ldDlm lane length) s)) ∧
    (s.reg.lcr = 0xBF → ReturnsByte length s.reg.efr s (exec (.ldEfr lane length) s)) ∧
    ReturnsByte length s.reg.lcr s (exec (.ldLcr lane length) s) ∧
    ReturnsByte length s.reg.mcr s (exec (.ldMcr lane length) s) ∧
    ReturnsByte length s.reg.scr s (exec (.ldScr lane length) s)

/-- On a live device that meets the invariant Inv, for any lane and any length of at least 1, LD.MSR returns the RESET_MSR parameter and no register, flag, rx or tx changes. (That every step keeps Inv is a statement of its own.)
Formalises R90. -/
def Obligations.LoadModemStatusReturnsResetValue : Prop :=
  ∀ (lane : Lane) (length : Nat) (s : State), s.life = .live → 1 ≤ length →
    ReturnsByte length s.reg.msr s (exec (.ldMsr lane length) s) ∧
    (s.Inv → ReturnsByte length s.params.reset.msr s (exec (.ldMsr lane length) s))

/-- On a live device with LCR not 0xBF (DLAB set or clear), for any lane and any length of at least 1, LD.IIR returns the IIR from before the side effect, and afterwards IIR has bit 0 set and bits 7:1 as before, whatever rx holds; nothing else changes.
Formalises R85. -/
def Obligations.LoadInterruptIdReturnsThenClears : Prop :=
  ∀ (lane : Lane) (length : Nat) (s : State), s.life = .live → 1 ≤ length → s.reg.lcr ≠ 0xBF →
    ∃ v : Byte, v.getLsbD 0 = true ∧ (∀ k, 1 ≤ k → v.getLsbD k = s.reg.iir.getLsbD k) ∧
      ReturnsByte length s.reg.iir { s with reg := { s.reg with iir := v } } (exec (.ldIir lane length) s)

/-- On a live device in any mode, for any lane and any length of at least 1, the byte returned has bit 0 set exactly when rx is not empty, bits 5 and 6 set, and bits 7 and 4:1 as stored; it is written back into LSR (spec decision D14); rx is not consumed and nothing else changes.
Rests on R89, R18, 92_eei_decisions.md D14. -/
def Obligations.LoadLineStatusReportsReadiness : Prop :=
  ∀ (lane : Lane) (length : Nat) (s : State), s.life = .live → 1 ≤ length →
    ∃ v : Byte, v.getLsbD 0 = decide (s.rx ≠ []) ∧ v.getLsbD 5 = true ∧ v.getLsbD 6 = true ∧
      (∀ k ∈ [1, 2, 3, 4, 7], v.getLsbD k = s.reg.lsr.getLsbD k) ∧
      ReturnsByte length v { s with reg := { s.reg with lsr := v } } (exec (.ldLsr lane length) s)

/-- For every address of at least 64, whatever LCR, length and data: the access resolves to LD.OOW or ST.OOW, returns failure, and no register, rx, tx or anything else of the device changes (out is free and its draws are counted: D4, log 7). For every address below 64 and any length the access resolves to another row: the test is on the address alone, which R42 marks as derived. An address is a natural number of any size (D3).
Rests on R42, R92, R112, 92_eei_decisions.md D3, D4, D16. -/
def Obligations.OutOfWindowFailsAndChangesNothing : Prop :=
  ∀ (address : Nat) (s : State), s.life = .live →
    (64 ≤ address → ∀ length, 1 ≤ length →
      decode s.reg.lcr (.load address length) = .ok (.ldOow address length) ∧
      ∃ out : List Byte, out.length = length ∧ exec (.ldOow address length) s =
        .next { s with response := .loadFail .outOfWindow out, draws := s.draws + length }) ∧
    (64 ≤ address → ∀ data, data ≠ [] →
      decode s.reg.lcr (.store address data) = .ok (.stOow address data) ∧
      exec (.stOow address data) s = .next { s with response := .storeFail .outOfWindow }) ∧
    (address < 64 → ∀ length a n, decode s.reg.lcr (.load address length) ≠ .ok (.ldOow a n)) ∧
    (address < 64 → ∀ data a d, decode s.reg.lcr (.store address data) ≠ .ok (.stOow a d))

/-- On a live device with LCR bit 7 clear whose channel takes the byte (D7), for any lane and any data after in[0]: tx gains in[0] at its end; with the enable set IIR bit 0 becomes 0 and bits 7:1 are kept, with it clear IIR is unchanged; nothing else changes and the STORE succeeds.
Rests on R101, R155, 92_eei_decisions.md D1, D7. -/
def Obligations.StoreDataTransmitsAndRaises : Prop :=
  ∀ (lane : Lane) (v : Byte) (more : List Byte) (s : State),
    s.life = .live → s.reg.lcr.getLsbD 7 = false → s.answers.txAccept = true →
    (s.reg.ier.getLsbD s.params.ierTrigBit.val = true →
      ∃ w : Byte, w.getLsbD 0 = false ∧ (∀ k, 1 ≤ k → w.getLsbD k = s.reg.iir.getLsbD k) ∧
        exec (.stData lane (v :: more)) s =
          .next { s with reg := { s.reg with iir := w }, tx := s.tx ++ [v], response := .storeOk }) ∧
    (s.reg.ier.getLsbD s.params.ierTrigBit.val = false →
      exec (.stData lane (v :: more)) s = .next { s with tx := s.tx ++ [v], response := .storeOk })

/-- On a live device with LCR bit 7 clear whose channel refuses the byte, ST.DATA reports TxShortWrite and sets life to dead; tx is unchanged, the flag is not raised, nothing else changes (the source's own choice, kept by D7).
Rests on R101, R123, R153, 92_eei_decisions.md D7. -/
def Obligations.ShortWriteKillsDevice : Prop :=
  ∀ (lane : Lane) (v : Byte) (more : List Byte) (s : State),
    s.life = .live → s.reg.lcr.getLsbD 7 = false → s.answers.txAccept = false →
    exec (.stData lane (v :: more)) s = .next { s with life := .dead, response := .fatal .txShortWrite }

/-- On a live device, in the row's addressing mode, for any lane and any data after in[0], each of the eight STOREs writes all eight bits of in[0] to its register and succeeds; no other register (in particular not IIR), rx or tx changes, and after ST.LCR the addressing mode is that of the new value.
Formalises R102, R103, R104, R105, R106, R107, R108, R111. -/
def Obligations.RegisterStoresWriteStraightThrough : Prop :=
  ∀ (lane : Lane) (v : Byte) (more : List Byte) (s : State), s.life = .live →
    (s.reg.lcr.getLsbD 7 = true →
      exec (.stDll lane (v :: more)) s = .next { s with reg := { s.reg with dll := v }, response := .storeOk }) ∧
    (s.reg.lcr.getLsbD 7 = false →
      exec (.stIer lane (v :: more)) s = .next { s with reg := { s.reg with ier := v }, response := .storeOk }) ∧
    (s.reg.lcr.getLsbD 7 = true →
      exec (.stDlm lane (v :: more)) s = .next { s with reg := { s.reg with dlm := v }, response := .storeOk }) ∧
    (s.reg.lcr ≠ 0xBF →
      exec (.stFcr lane (v :: more)) s = .next { s with reg := { s.reg with fcr := v }, response := .storeOk }) ∧
    (s.reg.lcr = 0xBF →
      exec (.stEfr lane (v :: more)) s = .next { s with reg := { s.reg with efr := v }, response := .storeOk }) ∧
    exec (.stLcr lane (v :: more)) s = .next { s with reg := { s.reg with lcr := v }, response := .storeOk } ∧
    exec (.stMcr lane (v :: more)) s = .next { s with reg := { s.reg with mcr := v }, response := .storeOk } ∧
    exec (.stScr lane (v :: more)) s = .next { s with reg := { s.reg with scr := v }, response := .storeOk }

/-- On a live device in any mode, for any lane and any data of at least one byte, a STORE to Line Status or Modem Status reports success and no state of the device changes.
Formalises R109, R110. -/
def Obligations.StatusStoresDiscarded : Prop :=
  ∀ (lane : Lane) (data : List Byte) (s : State), s.life = .live → data ≠ [] →
    exec (.stLsr lane data) s = .next { s with response := .storeOk } ∧
    exec (.stMsr lane data) s = .next { s with response := .storeOk }

/-- For every state, every two addresses with the same address >> 3, every length and every data, presenting the LOAD (or the STORE) at the one address or at the other gives the same outcome of the step, out of the window too.
Rests on R43, R46, R61. -/
def Obligations.EightOffsetsOfAnIndexAlias : Prop :=
  ∀ (s : State) (answers : HostAnswers) (rest : List Presented) (a b : Nat), a / 8 = b / 8 →
    (∀ length, step { s with pending := ⟨.load a length, answers⟩ :: rest } =
      step { s with pending := ⟨.load b length, answers⟩ :: rest }) ∧
    (∀ data, step { s with pending := ⟨.store a data, answers⟩ :: rest } =
      step { s with pending := ⟨.store b data, answers⟩ :: rest })

/-- For every state and address: two STOREs whose buffers begin with the same byte have the same outcome; two LOADs of at least one byte have outcomes that agree in everything but the undriven lanes of out (and the count of free bytes drawn), or are refused alike.
Rests on R44, R45, R193, 92_eei_decisions.md D4, D5. -/
def Obligations.LengthCarriesOneByteOnly : Prop :=
  ∀ (s : State) (answers : HostAnswers) (rest : List Presented) (a : Nat),
    (∀ (v : Byte) (x y : List Byte), step { s with pending := ⟨.store a (v :: x), answers⟩ :: rest } =
      step { s with pending := ⟨.store a (v :: y), answers⟩ :: rest }) ∧
    (∀ m n, 1 ≤ m → 1 ≤ n →
      OutcomesRelated (fun t u => u = { t with response := u.response, draws := u.draws } ∧ SameAnswer t u)
        (step { s with pending := ⟨.load a m, answers⟩ :: rest })
        (step { s with pending := ⟨.load a n, answers⟩ :: rest }))

/-- For every operation that leaves a live device live, the level irq_out afterwards is: for ST.DATA, raised if it was or if the enable is set; for TICK, raised if it was or if the enable is set and rx is not empty; for LD.IIR, not raised, and the byte it returned has bit 0 equal to 0 exactly when it was; for every other operation, as before. The enable is the bit IER_TRIG_BIT of IER, one bit for both paths, whatever that parameter is (spec decision D1, log 4; the rules write its default, bit 1); that there are three mutators is the resolution C2.
Rests on R154, R167, 92_eei_decisions.md D1, 90_conflicts.md C1, C2. -/
def Obligations.InterruptFlagHasThreeMutators : Prop :=
  ∀ (i : Instr) (s t : State), exec i s = .next t → s.life = .live → t.life = .live →
    (irqOut t =
      match i with
      | .stData _ _ => irqOut s || s.reg.ier.getLsbD s.params.ierTrigBit.val
      | .tick => irqOut s || (s.reg.ier.getLsbD s.params.ierTrigBit.val && !s.rx.isEmpty)
      | .ldIir _ _ => false
      | _ => irqOut s) ∧
    (∀ lane length, i = .ldIir lane length →
      ∃ b rest, t.response = .loadOk (b :: rest) ∧ b.getLsbD 0 = !irqOut s)

/-- For every operation that leaves a live device live: HOST.RX(v) appends v to rx, LD.DATA removes the head if there is one, every other operation leaves rx; LD.DATA returned the head, or 0x00 when rx was empty, and LD.LSR returned bit 0 set exactly when rx was not empty.
Rests on R24, R129, 92_eei_decisions.md D6. -/
def Obligations.ReceivePathFollowsQueue : Prop :=
  ∀ (i : Instr) (s t : State), exec i s = .next t → s.life = .live → t.life = .live →
    (t.rx =
      match i with
      | .hostRx v => s.rx ++ [v]
      | .ldData _ _ => s.rx.tail
      | _ => s.rx) ∧
    (∀ lane length, i = .ldData lane length → ∃ rest, t.response = .loadOk (s.rx.headD 0x00 :: rest)) ∧
    (∀ lane length, i = .ldLsr lane length → ∃ b rest, t.response = .loadOk (b :: rest) ∧ b.getLsbD 0 = !s.rx.isEmpty)

/-- For every operation on a live device: an ST.DATA whose byte the channel takes appends it to tx, one whose byte the channel refuses leaves tx and kills the device, every other operation leaves tx.
Rests on R24, R130, 92_eei_decisions.md D6, D7. -/
def Obligations.TransmitPathAppendsOnly : Prop :=
  ∀ (i : Instr) (s t : State), exec i s = .next t → s.life = .live →
    (t.tx =
      match i with
      | .stData _ (v :: _) => if s.answers.txAccept then s.tx ++ [v] else s.tx
      | _ => s.tx) ∧
    (∀ lane data, i = .stData lane data → (t.life = .dead ↔ s.answers.txAccept = false))

/-- For every live device with LCR bit 7 clear and rx = b :: rest, and every list of bytes the host sends between the two: LD of offset 40, the host bytes, LD of offset 0 run to the end, the last returns b, and rx is rest followed by the host bytes.
Rests on R129, R186. -/
def Obligations.ReadyReportGuaranteesNextByte : Prop :=
  ∀ (s : State) (b : Byte) (rest sent : List Byte),
    s.life = .live → s.reg.lcr.getLsbD 7 = false → s.rx = b :: rest →
    ∃ t, SafeRun (sent.length + 2) (presentAll (.load 40 1 :: (sent.map .hostRx ++ [.load 0 1])) s) t ∧
      t.response = .loadOk [b] ∧ t.rx = rest ++ sent ∧ t.pending = s.pending

/-- For every live device, every divisor byte d, every LCR value with bit 7 set and every one with bit 7 clear: storing the first to LCR, d to offset 0, the second to LCR and loading offset 0 runs to the end and returns the head of rx, or 0x00 when rx is empty, with DLL holding d and tx unchanged.
Rests on R50, R107, 95_test_vectors.md X2. -/
def Obligations.DivisorNeverReadThroughDataOffset : Prop :=
  ∀ (s : State) (on d off : Byte), s.life = .live → on.getLsbD 7 = true → off.getLsbD 7 = false →
    ∃ t, SafeRun 4 (presentAll [.store 24 [on], .store 0 [d], .store 24 [off], .load 0 1] s) t ∧
      t.response = .loadOk [s.rx.headD 0x00] ∧ t.rx = s.rx.tail ∧ t.reg.dll = d ∧ t.tx = s.tx

/-- For every live device with LCR bit 7 clear and every list of bytes: storing them one after the other to offset 0, the channel taking each, runs to the end and leaves tx extended by exactly that list, the device live and rx unchanged.
Rests on R24, R50, R101, 95_test_vectors.md X8, 92_eei_decisions.md D7. -/
def Obligations.TransmittedBytesKeepOrder : Prop :=
  ∀ (s : State) (bytes : List Byte), s.life = .live → s.reg.lcr.getLsbD 7 = false →
    ∃ t, SafeRun bytes.length (presentAll (bytes.map fun v => .store 0 [v]) s) t ∧
      t.tx = s.tx ++ bytes ∧ t.rx = s.rx ∧ t.life = .live

/-- For every live device, SETDIV d with a line-control value c of bit 7 clear runs to the end and leaves DLL the low and DLM the high byte of d and LCR = c; EFRWR v leaves EFR = v and LCR = c; every other register, rx and tx are as before.
Rests on R72, R21, R15, 92_eei_decisions.md D17. -/
def Obligations.PseudoStoresProgramDivisorAndFeature : Prop :=
  ∀ (s : State) (d : BitVec 16) (v c : Byte), s.life = .live → c.getLsbD 7 = false →
    (∃ t, SafeRun 4 (presentAll (setDiv d c) s) t ∧ t.rx = s.rx ∧ t.tx = s.tx ∧ t.life = .live ∧
      t.reg = { s.reg with dll := BitVec.ofNat 8 d.toNat, dlm := BitVec.ofNat 8 (d.toNat / 256), lcr := c }) ∧
    (∃ t, SafeRun 3 (presentAll (efrWr v c) s) t ∧ t.rx = s.rx ∧ t.tx = s.tx ∧ t.life = .live ∧
      t.reg = { s.reg with efr := v, lcr := c })

/-- For every live device with LCR bit 7 clear: with rx = b :: rest, GETC ends with the response b and rx = rest; with rx empty it ends with the Line Status report, bit 0 clear, and rx still empty.
Rests on R72, R186, 92_eei_decisions.md D17. -/
def Obligations.GetCharReceivesOnlyWhenReady : Prop :=
  ∀ (s : State), s.life = .live → s.reg.lcr.getLsbD 7 = false →
    (∀ b rest, s.rx = b :: rest → ∃ t, getC s = .next t ∧ t.response = .loadOk [b] ∧ t.rx = rest) ∧
    (s.rx = [] → ∃ t b, getC s = .next t ∧ t.response = .loadOk [b] ∧ b.getLsbD 0 = false ∧ t.rx = [])

/-- For every well-formed row with any operands and every value of LCR on which the row's condition holds, decoding its encoded operation gives exactly that row and those operands.
Rests on R65, R67, R68. -/
def Obligations.DecodeOfEncodeIsInstruction : Prop :=
  ∀ (lcr : Byte) (i : Instr), i.wf = true → i.rowCond.holds lcr = true → decode lcr (encode i) = .ok i

/-- For every value of LCR and every operation: if decoding answers a row, the row is well formed, its condition on LCR holds, and encoding it gives the operation back, so no two operations resolve to the same row with the same operands and no bit of an address is dropped.
Rests on R65, R66, R67. -/
def Obligations.EncodeOfDecodeIsOperation : Prop :=
  ∀ (lcr : Byte) (op : Operation) (i : Instr), decode lcr op = .ok i →
    i.wf = true ∧ i.rowCond.holds lcr = true ∧ encode i = op

/-- For every value of LCR, decoding answers a row exactly when the operation is inside the contract (a bus access has at least one byte); a step on a presented LOAD or STORE of length zero is refused as such (spec decision D5), on an unbuilt or dead device too, where that the length is the reason given is the model's order (log 9).
Rests on R67, R69, R45, 92_eei_decisions.md D5. -/
def Obligations.DecodeTotalInsideContract : Prop :=
  (∀ (lcr : Byte) (op : Operation), (∃ i, decode lcr op = .ok i) ↔ op.inContract = true) ∧
  (∀ (s : State) (p : Presented) (rest : List Presented), s.pending = p :: rest → p.op.inContract = false →
    step s = .refused .zeroLength)

/-- For every value of LCR, every address (a natural number of any size), length and data, and every LOAD (STORE) row of opcode_table.json: the row's mask, match and condition apply exactly when the LOAD (STORE) at that address decodes to the row with that mnemonic; so exactly one row of each kind applies.
Rests on R67, R68, 92_eei_decisions.md D3, D17. -/
def Obligations.DecodeAgreesWithOperationMap : Prop :=
  ∀ (lcr : Byte) (address length : Nat) (data : List Byte),
    (∀ r ∈ loadRows, r.applies address lcr = true ↔ (decodeLoad lcr address length).mnemonic = r.mnemonic) ∧
    (∀ r ∈ storeRows, r.applies address lcr = true ↔ (decodeStore lcr address data).mnemonic = r.mnemonic)

/-- A few (kind, address, LCR) triples written out from the encodings of the opcode table and the test vectors decode to the rows they stand for, with their lane and operands.
Rests on R67, 95_test_vectors.md sections 2 and 3. -/
def Obligations.SpecAddressesDecode : Prop :=
  decode 0x03 (.load 0b000000 1) = .ok (.ldData 0 1) ∧
  decode 0x80 (.load 0b000111 1) = .ok (.ldDll 7 1) ∧
  decode 0x7F (.store 0b001001 [0xFF]) = .ok (.stIer 1 [0xFF]) ∧
  decode 0xBF (.load 0b010000 1) = .ok (.ldEfr 0 1) ∧
  decode 0xBE (.store 0b010000 [0x07]) = .ok (.stFcr 0 [0x07]) ∧
  decode 0xBF (.load 0b111111 8) = .ok (.ldScr 7 8) ∧
  decode 0x00 (.store 0b1000000 [0xFF]) = .ok (.stOow 64 [0xFF]) ∧
  decode 0x00 (.load 18446744073709551616 1) = .ok (.ldOow 18446744073709551616 1)

/-- DLAB is bit 7 of LCR and EXT is LCR = 0xBF, which implies DLAB (R22 marks that sentence as derived); the mode is NORMAL with bit 7 clear, EXTENDED at 0xBF, DIVISOR otherwise. For every address of index 0, 1 or 2 the LOAD and the STORE resolve in each mode to the rows of the table of R22, at the other in-window indices to the same row in every mode; a live device that stays live changes LCR only by ST.LCR; and after an ST.LCR of v the very next presented operation is decoded with v and run so.
Rests on R22, R66, R107. -/
def Obligations.AddressingModeFollowsLineControl : Prop :=
  (∀ lcr : Byte,
    (dlab lcr = lcr.getLsbD 7) ∧ (ext lcr = decide (lcr = 0xBF)) ∧ (ext lcr = true → dlab lcr = true) ∧
    (modeOf lcr = .normal ↔ lcr.getLsbD 7 = false) ∧
    (modeOf lcr = .divisor ↔ lcr.getLsbD 7 = true ∧ lcr ≠ 0xBF) ∧
    (modeOf lcr = .extended ↔ lcr = 0xBF)) ∧
  (∀ (lcr : Byte) (address length : Nat) (data : List Byte),
    let ld := (decodeLoad lcr address length).mnemonic
    let st := (decodeStore lcr address data).mnemonic
    (address / 8 = 0 → (ld, st) = if modeOf lcr = .normal then ("LD.DATA", "ST.DATA") else ("LD.DLL", "ST.DLL")) ∧
    (address / 8 = 1 → (ld, st) = if modeOf lcr = .normal then ("LD.IER", "ST.IER") else ("LD.DLM", "ST.DLM")) ∧
    (address / 8 = 2 → (ld, st) = if modeOf lcr = .extended then ("LD.EFR", "ST.EFR") else ("LD.IIR", "ST.FCR")) ∧
    (3 ≤ address / 8 → ∀ lcr', decodeLoad lcr' address length = decodeLoad lcr address length ∧
      decodeStore lcr' address data = decodeStore lcr address data)) ∧
  (∀ (i : Instr) (s t : State), exec i s = .next t → s.life = .live → t.life = .live → t.reg.lcr ≠ s.reg.lcr →
    ∃ lane data, i = .stLcr lane data) ∧
  (∀ (s : State) (lane : Lane) (v : Byte) (more : List Byte) (p : Presented) (rest : List Presented) (i : Instr),
    s.life = .live → s.pending = p :: rest → decode v p.op = .ok i →
    ∃ t, exec (.stLcr lane (v :: more)) s = .next t ∧ t.reg.lcr = v ∧
      step t = exec i { t with pending := rest, answers := p.answers })

/-- If the oldest presented operation decodes to a row under the state's LCR, the step is exec of that row on the state from which that operation has been taken and in which the host's answers to it are latched. The queue of presented operations and the latched answers are the model's form (logs 2 and 3).
Rests on R47, R66, R67. -/
def Obligations.StepRunsDecodedOperation : Prop :=
  ∀ (s : State) (p : Presented) (rest : List Presented) (i : Instr),
    s.pending = p :: rest → decode s.reg.lcr p.op = .ok i →
    step s = exec i { s with pending := rest, answers := p.answers }

/-- If no operation is presented, a step answers the same state, in every phase of the device's life: all state survives any length of idleness. That the last response is kept too is the model's choice (log 25).
Rests on R27, R168. -/
def Obligations.IdleStepChangesNothing : Prop :=
  ∀ s : State, s.pending = [] → ∀ k, SafeRun k s s

/-- From every state that meets Inv, if a step answers a next state, that state meets Inv: on a live device MSR is RESET_MSR, IIR bits 7:1 are those of RESET_IIR, LSR bits 7 and 4:1 are those of RESET_LSR, LSR bits 5 and 6 are set if RESET_LSR has them set; and link_path is never the empty string.
Rests on R32. -/
def Obligations.StepKeepsInvariant : Prop :=
  ∀ s t : State, s.Inv → step s = .next t → t.Inv

/-- State.reset meets Inv, and so does every state a successful CONSTRUCT leaves.
Rests on R32. -/
def Obligations.ResetMeetsInvariant : Prop :=
  State.reset.Inv ∧ ∀ s t : State, exec .construct s = .next t → t.life = .live → t.Inv

/-- For every number of steps from every state that is not unbuilt, if the run ends in a state: the earlier tx is a prefix of the later, a link path once set is the same, the host actions recorded earlier are a prefix of the later, and the parameters are the same. That link_path is kept past DESTROY is the model's choice (log 12), and so is the record of host actions (log 14).
Rests on R32, R25, R29. -/
def Obligations.RunsOnlyExtendTransmitTrace : Prop :=
  ∀ (k : Nat) (s t : State), s.life ≠ .unbuilt → SafeRun k s t →
    s.tx <+: t.tx ∧ (∀ path, s.linkPath = some path → t.linkPath = some path) ∧ s.hostLog <+: t.hostLog ∧ t.params = s.params

/-- For every number of steps: from a dead device, if the run ends in a state, it is the very state it began in, so the device is dead; from a live or dead device, if the run ends in a state, the device is not unbuilt. On a dead device a step on any presented operation, DESTROY (log 11) and CONSTRUCT too, is refused.
Rests on R181, R31, R69, 92_eei_decisions.md D15, 93_implementation_defined.md U9. -/
def Obligations.DeadDeviceStaysDead : Prop :=
  (∀ (k : Nat) (s t : State), SafeRun k s t →
    (s.life = .dead → t = s) ∧
    (s.life ≠ .unbuilt → t.life ≠ .unbuilt)) ∧
  (∀ s : State, s.life = .dead → s.pending ≠ [] → ∃ r, step s = .refused r)

/-- For every number of steps and every two states that differ at most in FCR and in the stored LSR bits 0, 5 and 6, the two runs end alike: both in states that again differ at most so (the same responses, flag, rx, tx, link and life), or both refused for the same reason.
Rests on R14, R18, R28, R182. -/
def Obligations.FifoControlAndStoredStatusUnobservable : Prop :=
  ∀ (k : Nat) (s t : State), SameButUnobservable s t →
    OutcomesRelated SameButUnobservable (runSteps k s) (runSteps k t)

/-- For every number of steps and every two states that differ at most in these six registers and in out[0] of the last response, the two runs end alike: both in states that again differ at most so (same IER, IIR, LCR, LSR, MSR, rx, tx, link, life, host actions), or both refused for the same reason. And the next operation after them gives both the same answer, success, failure and every byte, unless it is LD.DLL, LD.DLM, LD.EFR, LD.MCR or LD.SCR, whose answers differ at most in out[0] (spec decision D18).
Rests on R14, R15, R17, R20, R21, 92_eei_decisions.md D18. -/
def Obligations.FunctionlessRegistersAffectNothing : Prop :=
  ∀ (k : Nat) (s t : State), SameButFunctionless s t →
    OutcomesRelated SameButFunctionless (runSteps k s) (runSteps k t) ∧
    ∀ (a b : State) (p : Presented) (rest : List Presented) (i : Instr),
      runSteps k s = .next a → runSteps k t = .next b → a.pending = p :: rest → decode a.reg.lcr p.op = .ok i →
      OutcomesRelated
        (fun u v => if readsFunctionless i then SameButFirstByte u.response v.response else u.response = v.response)
        (step a) (step b)

/-- If an operation ends with a fatal error, it is the operation the table of R151 names for that error, the device is dead, and no register, rx, tx or link_path has changed; if it ends with a bus failure, it is the out-of-window LOAD or STORE at an address of at least 64 and life has not changed; an operation on a live device leaves it live or is DESTROY or ended with a fatal error. That a failed CONSTRUCT leaves the registers, rx, tx and link_path as they were, over the placeholders of an unbuilt device, is the model's choice (logs 16 and 22).
Rests on R151, R152, R153, 92_eei_decisions.md D7, D13, D15, D20. -/
def Obligations.AbnormalEndingsAreThoseOfTheTable : Prop :=
  ∀ (i : Instr) (s t : State), exec i s = .next t →
    (∀ e, t.response = .fatal e →
      t.life = .dead ∧ t.reg = s.reg ∧ t.rx = s.rx ∧ t.tx = s.tx ∧ t.linkPath = s.linkPath ∧
      (match e with
        | .channelAllocFailed => i = .construct
        | .channelConfigFailed => i = .construct
        | .linkResolveFailed => ∃ path, i = .createLink path
        | .linkCreateFailed => ∃ path, i = .createLink path
        | .txShortWrite => ∃ lane data, i = .stData lane data)) ∧
    (∀ why out, t.response = .loadFail why out → t.life = s.life ∧ ∃ address length, i = .ldOow address length ∧ 64 ≤ address) ∧
    (∀ why, t.response = .storeFail why → t.life = s.life ∧ ∃ address data, i = .stOow address data ∧ 64 ≤ address) ∧
    (s.life = .live → t.life = .live ∨ i = .destroy ∨ ∃ e, t.response = .fatal e)

/-- For every row but CONSTRUCT, well formed, on every live device whose LCR meets the row's condition, and for CONSTRUCT on every unbuilt device, exec answers a next state; an in-window LOAD succeeds with a buffer of its length and an in-window STORE the channel takes succeeds. Where the host refuses (ST.DATA, CREATE_LINK, CONSTRUCT) the operation does not complete, and the next state is its fatal ending (R153; a next state by the model's choice, log 8).
Rests on R67, R69, R80, R100, R153. -/
def Obligations.EveryRowCompletesInItsMode : Prop :=
  ∀ (i : Instr) (s : State), i.wf = true → i.rowCond.holds s.reg.lcr = true →
    (if i = .construct then s.life = .unbuilt else s.life = .live) →
    ∃ t, exec i s = .next t ∧
      (∀ address length, encode i = .load address length → address < 64 →
        ∃ out, t.response = .loadOk out ∧ out.length = length) ∧
      (∀ address data, encode i = .store address data → address < 64 → s.answers.txAccept = true → t.response = .storeOk)

/-- For every live device and every list of operations, each a bus access of at least one byte at any address, a TICK, a HOST.RX or a CREATE_LINK, with a host that accepts (for the transmitted byte the spec's default D7, for CREATE_LINK the model's choice, log 3): the run of all of them is refused nowhere, the device is live at the end and every operation has been taken.
Rests on R47, R69, R150, 92_eei_decisions.md D7. -/
def Obligations.OperationsInContractRunToTheEnd : Prop :=
  ∀ (ops : List Operation) (s : State), s.life = .live → (∀ op ∈ ops, keepsLive op = true) →
    ∃ t, SafeRun ops.length (presentAll ops s) t ∧ t.life = .live ∧ t.pending = s.pending

/-- For every live device with LCR = 0xBF: a STORE to offset 0 writes DLL and transmits nothing, a LOAD of offset 0 returns DLL and consumes nothing, a LOAD of offset 16 returns EFR and leaves IIR, a STORE to offset 16 writes EFR and leaves IIR and FCR.
Rests on R185, R192, R15. -/
def Obligations.ExtendedBankHidesDataPath : Prop :=
  ∀ (s : State) (v : Byte), s.life = .live → s.reg.lcr = 0xBF →
    (∃ t, step (present (.store 0 [v]) s) = .next t ∧ t.reg = { s.reg with dll := v } ∧ t.tx = s.tx) ∧
    (∃ t, step (present (.load 0 1) s) = .next t ∧ t.reg = s.reg ∧ t.rx = s.rx ∧ t.response = .loadOk [s.reg.dll]) ∧
    (∃ t, step (present (.load 16 1) s) = .next t ∧ t.reg = s.reg ∧ t.response = .loadOk [s.reg.efr]) ∧
    (∃ t, step (present (.store 16 [v]) s) = .next t ∧ t.reg = { s.reg with efr := v })

/-- For every live device in NORMAL mode with the enable set and every non-empty list of bytes, the channel taking each (D7; the host presentAll gives accepts, log 3): storing them to offset 0 and then loading offset 16 returns a byte with bit 0 clear; loading it once more returns bit 0 set and the flag is not pending.
Rests on R159, R163, 95_test_vectors.md VF1, 92_eei_decisions.md D1, D7. -/
def Obligations.RaisesCollapseIntoOneAcknowledge : Prop :=
  ∀ (s : State) (bytes : List Byte), s.life = .live → s.reg.lcr.getLsbD 7 = false →
    s.reg.ier.getLsbD s.params.ierTrigBit.val = true → bytes ≠ [] →
    (∃ t b, SafeRun (bytes.length + 1) (presentAll (bytes.map (fun v => .store 0 [v]) ++ [.load 16 1]) s) t ∧
      t.response = .loadOk [b] ∧ b.getLsbD 0 = false) ∧
    (∃ t b, SafeRun (bytes.length + 2) (presentAll (bytes.map (fun v => .store 0 [v]) ++ [.load 16 1, .load 16 1]) s) t ∧
      t.response = .loadOk [b] ∧ b.getLsbD 0 = true ∧ irqOut t = false)

/-- For every live device in NORMAL mode with the enable set and exactly one byte in rx: LD.IIR then TICK ends with the flag pending; LD.IIR, LD.DATA, TICK ends with the flag not pending; TICK then LD.DATA ends with the flag pending and rx empty.
Rests on R120, R163, R188. -/
def Obligations.TickReRaisesWhileDataWaits : Prop :=
  ∀ (s : State) (b : Byte), s.life = .live → s.reg.lcr.getLsbD 7 = false →
    s.reg.ier.getLsbD s.params.ierTrigBit.val = true → s.rx = [b] →
    (∃ t, SafeRun 2 (presentAll [.load 16 1, .tick] s) t ∧ irqOut t = true) ∧
    (∃ t, SafeRun 3 (presentAll [.load 16 1, .load 0 1, .tick] s) t ∧ irqOut t = false) ∧
    (∃ t, SafeRun 2 (presentAll [.tick, .load 0 1] s) t ∧ irqOut t = true ∧ t.rx = [])

/-- For every live device and every byte, storing it to the register's offset in the register's mode and loading that offset runs to the end and returns the byte; a store to MSR followed by a load returns MSR as it was; a store to LSR followed by a load ends in the very state, with the very report, that the load alone ends in.
Rests on R194, R12, R15, R16, R17, R18, R19, R20, R21. -/
def Obligations.StoredRegistersReadBack : Prop :=
  ∀ (s : State) (v : Byte), s.life = .live →
    (∀ a, a = 24 ∨ a = 32 ∨ a = 56 ∨ (a = 8 ∧ s.reg.lcr.getLsbD 7 = false) ∨
        ((a = 0 ∨ a = 8) ∧ s.reg.lcr.getLsbD 7 = true) ∨ (a = 16 ∧ s.reg.lcr = 0xBF) →
      ∃ t, SafeRun 2 (presentAll [.store a [v], .load a 1] s) t ∧ t.response = .loadOk [v]) ∧
    (∃ t, SafeRun 2 (presentAll [.store 48 [v], .load 48 1] s) t ∧ t.response = .loadOk [s.reg.msr]) ∧
    (∃ t b, SafeRun 2 (presentAll [.store 40 [v], .load 40 1] s) t ∧ SafeRun 1 (presentAll [.load 40 1] s) t ∧
      t.response = .loadOk [b])

/-- Whatever UART_BASE is: a read, a write and a fetch at bus address UART_BASE + off are the LOAD, the STORE and the LOAD at offset off; and every bus read or write that reaches the block is at UART_BASE + off for the offset off it is presented at (one below UART_BASE is not routed: the model's reading, log 19).
Rests on R53, R54, 92_eei_decisions.md D9, D12. -/
def Obligations.BusPresentsWindowOffsets : Prop :=
  (∀ off n : Nat, memRead (Config.uartBase + off) n = some (.load off n) ∧
    memFetch (Config.uartBase + off) n = some (.load off n)) ∧
  (∀ (off : Nat) (data : List Byte), memWrite (Config.uartBase + off) data = some (.store off data)) ∧
  (∀ busAddress n op, memRead busAddress n = some op →
    ∃ off, busAddress = Config.uartBase + off ∧ op = .load off n) ∧
  (∀ busAddress data op, memWrite busAddress data = some op →
    ∃ off, busAddress = Config.uartBase + off ∧ op = .store off data)
end

