-- ==== Sys2Proof/Laws/Decode.lean ====
section
/-! SUPPORT. Arithmetic of the decode: index, lane and row address (30_encoding.md R65, R68). -/

namespace Sys2Proof

theorem idx_eq_div (address : Nat) : idx address = address / 8 := by
  simp [idx, Config.strideShift, Nat.shiftRight_eq_div_pow]

theorem rowAddress_eq (index : Nat) (lane : Lane) : rowAddress index lane = 8 * index + lane.toNat := by
  simp [rowAddress, Config.strideShift, Nat.shiftLeft_eq, Nat.mul_comm]

theorem laneOf_toNat (address : Nat) : (laneOf address).toNat = address % 8 := by
  simp [laneOf]

@[simp] theorem idx_rowAddress (index : Nat) (lane : Lane) : idx (rowAddress index lane) = index := by
  have := lane.isLt
  rw [idx_eq_div, rowAddress_eq]
  omega

@[simp] theorem laneOf_rowAddress (index : Nat) (lane : Lane) : laneOf (rowAddress index lane) = lane := by
  have := lane.isLt
  apply BitVec.eq_of_toNat_eq
  rw [laneOf_toNat, rowAddress_eq]
  omega

theorem rowAddress_idx (address : Nat) : rowAddress (idx address) (laneOf address) = address := by
  rw [rowAddress_eq, laneOf_toNat, idx_eq_div]
  omega

/-- `EXT()` implies `DLAB()` (10_state.md R22). -/
theorem dlab_of_ext (lcr : Byte) (h : ext lcr = true) : dlab lcr = true := by
  have : lcr = 0xBF := by simpa [ext] using h
  subst this
  decide

/-- `EXT()` as a decision. -/
theorem ext_eq_decide (lcr : Byte) : ext lcr = decide (lcr = 0xBF) := beq_eq_decide _ _

/-- The mask of every in-window row of the operation map tests the index (30_encoding.md R68). -/
theorem mask_match_eq_idx (address k : Nat) (hk : k < 8) :
    (decide (address < 2 ^ 64) && (BitVec.ofNat 64 address &&& 0xFFFFFFFFFFFFFFF8 == BitVec.ofNat 64 (8 * k))) =
      decide (idx address = k) := by
  rw [idx_eq_div]
  by_cases ha : address < 2 ^ 64
  · simp only [ha, decide_true, Bool.true_and]
    have cleared : (BitVec.ofNat 64 address &&& 0xFFFFFFFFFFFFFFF8) = BitVec.ofNat 64 (address / 8 * 8) := by
      have mask : (0xFFFFFFFFFFFFFFF8 : BitVec 64) = BitVec.allOnes 64 <<< 3 := by decide
      have shifted : BitVec.ofNat 64 (address / 8 * 8) = (BitVec.ofNat 64 address >>> 3) <<< 3 := by
        apply BitVec.eq_of_toNat_eq
        simp [Nat.shiftRight_eq_div_pow, Nat.shiftLeft_eq]
        have ha' : address < 18446744073709551616 := ha
        omega
      rw [mask, shifted]
      ext i hi
      interval_cases i <;> simp
    rw [cleared, beq_eq_decide]
    congr 1
    apply propext
    constructor
    · intro h
      have := congrArg BitVec.toNat h
      simp at this
      omega
    · rintro rfl
      rw [Nat.mul_comm]
  · simp only [ha, decide_false, Bool.false_and]
    symm
    simp
    omega

/-- The nine cases of an index. -/
theorem idx_cases (address : Nat) :
    idx address = 0 ∨ idx address = 1 ∨ idx address = 2 ∨ idx address = 3 ∨ idx address = 4 ∨ idx address = 5 ∨
      idx address = 6 ∨ idx address = 7 ∨ 8 ≤ idx address := by
  omega

theorem decodeLoad_outside (lcr : Byte) (address length : Nat) (h : 8 ≤ idx address) :
    decodeLoad lcr address length = .ldOow address length := by
  unfold decodeLoad
  split <;> first | omega | rfl

theorem decodeStore_outside (lcr : Byte) (address : Nat) (data : List Byte) (h : 8 ≤ idx address) :
    decodeStore lcr address data = .stOow address data := by
  unfold decodeStore
  split <;> first | omega | rfl

theorem decodeLoad_index0 (lcr : Byte) (address : Nat) (length : Nat) (h : idx address = 0) :
    decodeLoad lcr address length = if dlab lcr then .ldDll (laneOf address) length else .ldData (laneOf address) length := by
  simp [decodeLoad, h]

theorem decodeStore_index0 (lcr : Byte) (address : Nat) (data : List Byte) (h : idx address = 0) :
    decodeStore lcr address data = if dlab lcr then .stDll (laneOf address) data else .stData (laneOf address) data := by
  simp [decodeStore, h]

theorem decodeLoad_index1 (lcr : Byte) (address : Nat) (length : Nat) (h : idx address = 1) :
    decodeLoad lcr address length = if dlab lcr then .ldDlm (laneOf address) length else .ldIer (laneOf address) length := by
  simp [decodeLoad, h]

theorem decodeStore_index1 (lcr : Byte) (address : Nat) (data : List Byte) (h : idx address = 1) :
    decodeStore lcr address data = if dlab lcr then .stDlm (laneOf address) data else .stIer (laneOf address) data := by
  simp [decodeStore, h]

theorem decodeLoad_index2 (lcr : Byte) (address : Nat) (length : Nat) (h : idx address = 2) :
    decodeLoad lcr address length = if ext lcr then .ldEfr (laneOf address) length else .ldIir (laneOf address) length := by
  simp [decodeLoad, h]

theorem decodeStore_index2 (lcr : Byte) (address : Nat) (data : List Byte) (h : idx address = 2) :
    decodeStore lcr address data = if ext lcr then .stEfr (laneOf address) data else .stFcr (laneOf address) data := by
  simp [decodeStore, h]

theorem decodeLoad_index3 (lcr : Byte) (address : Nat) (length : Nat) (h : idx address = 3) :
    decodeLoad lcr address length = .ldLcr (laneOf address) length := by
  simp [decodeLoad, h]

theorem decodeStore_index3 (lcr : Byte) (address : Nat) (data : List Byte) (h : idx address = 3) :
    decodeStore lcr address data = .stLcr (laneOf address) data := by
  simp [decodeStore, h]

theorem decodeLoad_index4 (lcr : Byte) (address : Nat) (length : Nat) (h : idx address = 4) :
    decodeLoad lcr address length = .ldMcr (laneOf address) length := by
  simp [decodeLoad, h]

theorem decodeStore_index4 (lcr : Byte) (address : Nat) (data : List Byte) (h : idx address = 4) :
    decodeStore lcr address data = .stMcr (laneOf address) data := by
  simp [decodeStore, h]

theorem decodeLoad_index5 (lcr : Byte) (address : Nat) (length : Nat) (h : idx address = 5) :
    decodeLoad lcr address length = .ldLsr (laneOf address) length := by
  simp [decodeLoad, h]

theorem decodeStore_index5 (lcr : Byte) (address : Nat) (data : List Byte) (h : idx address = 5) :
    decodeStore lcr address data = .stLsr (laneOf address) data := by
  simp [decodeStore, h]

theorem decodeLoad_index6 (lcr : Byte) (address : Nat) (length : Nat) (h : idx address = 6) :
    decodeLoad lcr address length = .ldMsr (laneOf address) length := by
  simp [decodeLoad, h]

theorem decodeStore_index6 (lcr : Byte) (address : Nat) (data : List Byte) (h : idx address = 6) :
    decodeStore lcr address data = .stMsr (laneOf address) data := by
  simp [decodeStore, h]

theorem decodeLoad_index7 (lcr : Byte) (address : Nat) (length : Nat) (h : idx address = 7) :
    decodeLoad lcr address length = .ldScr (laneOf address) length := by
  simp [decodeLoad, h]

theorem decodeStore_index7 (lcr : Byte) (address : Nat) (data : List Byte) (h : idx address = 7) :
    decodeStore lcr address data = .stScr (laneOf address) data := by
  simp [decodeStore, h]

end Sys2Proof
end

