-- ==== Sys2Proof/Laws/State.lean ====
section
/-! SUPPORT. One lemma per field of State per update of the shared operations, so that no proof unfolds a record update. -/

namespace Sys2Proof.Machine

@[simp] theorem withReg_reg (r : Regs) (s : State) : (withReg r s).reg = r := rfl
@[simp] theorem withReg_rx (r : Regs) (s : State) : (withReg r s).rx = s.rx := rfl
@[simp] theorem withReg_tx (r : Regs) (s : State) : (withReg r s).tx = s.tx := rfl
@[simp] theorem withReg_linkPath (r : Regs) (s : State) : (withReg r s).linkPath = s.linkPath := rfl
@[simp] theorem withReg_life (r : Regs) (s : State) : (withReg r s).life = s.life := rfl
@[simp] theorem withReg_params (r : Regs) (s : State) : (withReg r s).params = s.params := rfl
@[simp] theorem withReg_pending (r : Regs) (s : State) : (withReg r s).pending = s.pending := rfl
@[simp] theorem withReg_answers (r : Regs) (s : State) : (withReg r s).answers = s.answers := rfl
@[simp] theorem withReg_response (r : Regs) (s : State) : (withReg r s).response = s.response := rfl
@[simp] theorem withReg_hostLog (r : Regs) (s : State) : (withReg r s).hostLog = s.hostLog := rfl
@[simp] theorem withReg_draws (r : Regs) (s : State) : (withReg r s).draws = s.draws := rfl

@[simp] theorem returnDone_reg (s : State) : (returnDone s).reg = s.reg := rfl
@[simp] theorem returnDone_rx (s : State) : (returnDone s).rx = s.rx := rfl
@[simp] theorem returnDone_tx (s : State) : (returnDone s).tx = s.tx := rfl
@[simp] theorem returnDone_linkPath (s : State) : (returnDone s).linkPath = s.linkPath := rfl
@[simp] theorem returnDone_life (s : State) : (returnDone s).life = s.life := rfl
@[simp] theorem returnDone_params (s : State) : (returnDone s).params = s.params := rfl
@[simp] theorem returnDone_pending (s : State) : (returnDone s).pending = s.pending := rfl
@[simp] theorem returnDone_answers (s : State) : (returnDone s).answers = s.answers := rfl
@[simp] theorem returnDone_response (s : State) : (returnDone s).response = .done := rfl
@[simp] theorem returnDone_hostLog (s : State) : (returnDone s).hostLog = s.hostLog := rfl
@[simp] theorem returnDone_draws (s : State) : (returnDone s).draws = s.draws := rfl

@[simp] theorem returnStore_reg (s : State) : (returnStore s).reg = s.reg := rfl
@[simp] theorem returnStore_rx (s : State) : (returnStore s).rx = s.rx := rfl
@[simp] theorem returnStore_tx (s : State) : (returnStore s).tx = s.tx := rfl
@[simp] theorem returnStore_linkPath (s : State) : (returnStore s).linkPath = s.linkPath := rfl
@[simp] theorem returnStore_life (s : State) : (returnStore s).life = s.life := rfl
@[simp] theorem returnStore_params (s : State) : (returnStore s).params = s.params := rfl
@[simp] theorem returnStore_pending (s : State) : (returnStore s).pending = s.pending := rfl
@[simp] theorem returnStore_answers (s : State) : (returnStore s).answers = s.answers := rfl
@[simp] theorem returnStore_response (s : State) : (returnStore s).response = .storeOk := rfl
@[simp] theorem returnStore_hostLog (s : State) : (returnStore s).hostLog = s.hostLog := rfl
@[simp] theorem returnStore_draws (s : State) : (returnStore s).draws = s.draws := rfl

@[simp] theorem returnStoreFail_reg (s : State) : (returnStoreFail s).reg = s.reg := rfl
@[simp] theorem returnStoreFail_rx (s : State) : (returnStoreFail s).rx = s.rx := rfl
@[simp] theorem returnStoreFail_tx (s : State) : (returnStoreFail s).tx = s.tx := rfl
@[simp] theorem returnStoreFail_linkPath (s : State) : (returnStoreFail s).linkPath = s.linkPath := rfl
@[simp] theorem returnStoreFail_life (s : State) : (returnStoreFail s).life = s.life := rfl
@[simp] theorem returnStoreFail_params (s : State) : (returnStoreFail s).params = s.params := rfl
@[simp] theorem returnStoreFail_pending (s : State) : (returnStoreFail s).pending = s.pending := rfl
@[simp] theorem returnStoreFail_answers (s : State) : (returnStoreFail s).answers = s.answers := rfl
@[simp] theorem returnStoreFail_response (s : State) : (returnStoreFail s).response = .storeFail .outOfWindow := rfl
@[simp] theorem returnStoreFail_hostLog (s : State) : (returnStoreFail s).hostLog = s.hostLog := rfl
@[simp] theorem returnStoreFail_draws (s : State) : (returnStoreFail s).draws = s.draws := rfl

@[simp] theorem returnLoad_reg (n : Nat) (b : Byte) (s : State) : (returnLoad n b s).reg = s.reg := rfl
@[simp] theorem returnLoad_rx (n : Nat) (b : Byte) (s : State) : (returnLoad n b s).rx = s.rx := rfl
@[simp] theorem returnLoad_tx (n : Nat) (b : Byte) (s : State) : (returnLoad n b s).tx = s.tx := rfl
@[simp] theorem returnLoad_linkPath (n : Nat) (b : Byte) (s : State) : (returnLoad n b s).linkPath = s.linkPath := rfl
@[simp] theorem returnLoad_life (n : Nat) (b : Byte) (s : State) : (returnLoad n b s).life = s.life := rfl
@[simp] theorem returnLoad_params (n : Nat) (b : Byte) (s : State) : (returnLoad n b s).params = s.params := rfl
@[simp] theorem returnLoad_pending (n : Nat) (b : Byte) (s : State) : (returnLoad n b s).pending = s.pending := rfl
@[simp] theorem returnLoad_answers (n : Nat) (b : Byte) (s : State) : (returnLoad n b s).answers = s.answers := rfl
@[simp] theorem returnLoad_response (n : Nat) (b : Byte) (s : State) : (returnLoad n b s).response = .loadOk (outBuffer n b s) := rfl
@[simp] theorem returnLoad_hostLog (n : Nat) (b : Byte) (s : State) : (returnLoad n b s).hostLog = s.hostLog := rfl
@[simp] theorem returnLoad_draws (n : Nat) (b : Byte) (s : State) : (returnLoad n b s).draws = s.draws + (n - 1) := rfl

@[simp] theorem returnLoadFail_reg (n : Nat) (s : State) : (returnLoadFail n s).reg = s.reg := rfl
@[simp] theorem returnLoadFail_rx (n : Nat) (s : State) : (returnLoadFail n s).rx = s.rx := rfl
@[simp] theorem returnLoadFail_tx (n : Nat) (s : State) : (returnLoadFail n s).tx = s.tx := rfl
@[simp] theorem returnLoadFail_linkPath (n : Nat) (s : State) : (returnLoadFail n s).linkPath = s.linkPath := rfl
@[simp] theorem returnLoadFail_life (n : Nat) (s : State) : (returnLoadFail n s).life = s.life := rfl
@[simp] theorem returnLoadFail_params (n : Nat) (s : State) : (returnLoadFail n s).params = s.params := rfl
@[simp] theorem returnLoadFail_pending (n : Nat) (s : State) : (returnLoadFail n s).pending = s.pending := rfl
@[simp] theorem returnLoadFail_answers (n : Nat) (s : State) : (returnLoadFail n s).answers = s.answers := rfl
@[simp] theorem returnLoadFail_response (n : Nat) (s : State) : (returnLoadFail n s).response = .loadFail .outOfWindow (freeBytes n s) := rfl
@[simp] theorem returnLoadFail_hostLog (n : Nat) (s : State) : (returnLoadFail n s).hostLog = s.hostLog := rfl
@[simp] theorem returnLoadFail_draws (n : Nat) (s : State) : (returnLoadFail n s).draws = s.draws + n := rfl

@[simp] theorem raiseFatal_reg (e : Fatal) (s : State) : (raiseFatal e s).reg = s.reg := rfl
@[simp] theorem raiseFatal_rx (e : Fatal) (s : State) : (raiseFatal e s).rx = s.rx := rfl
@[simp] theorem raiseFatal_tx (e : Fatal) (s : State) : (raiseFatal e s).tx = s.tx := rfl
@[simp] theorem raiseFatal_linkPath (e : Fatal) (s : State) : (raiseFatal e s).linkPath = s.linkPath := rfl
@[simp] theorem raiseFatal_life (e : Fatal) (s : State) : (raiseFatal e s).life = .dead := rfl
@[simp] theorem raiseFatal_params (e : Fatal) (s : State) : (raiseFatal e s).params = s.params := rfl
@[simp] theorem raiseFatal_pending (e : Fatal) (s : State) : (raiseFatal e s).pending = s.pending := rfl
@[simp] theorem raiseFatal_answers (e : Fatal) (s : State) : (raiseFatal e s).answers = s.answers := rfl
@[simp] theorem raiseFatal_response (e : Fatal) (s : State) : (raiseFatal e s).response = .fatal e := rfl
@[simp] theorem raiseFatal_hostLog (e : Fatal) (s : State) : (raiseFatal e s).hostLog = s.hostLog := rfl
@[simp] theorem raiseFatal_draws (e : Fatal) (s : State) : (raiseFatal e s).draws = s.draws := rfl

@[simp] theorem logHost_reg (a : List HostAction) (s : State) : (logHost a s).reg = s.reg := rfl
@[simp] theorem logHost_rx (a : List HostAction) (s : State) : (logHost a s).rx = s.rx := rfl
@[simp] theorem logHost_tx (a : List HostAction) (s : State) : (logHost a s).tx = s.tx := rfl
@[simp] theorem logHost_linkPath (a : List HostAction) (s : State) : (logHost a s).linkPath = s.linkPath := rfl
@[simp] theorem logHost_life (a : List HostAction) (s : State) : (logHost a s).life = s.life := rfl
@[simp] theorem logHost_params (a : List HostAction) (s : State) : (logHost a s).params = s.params := rfl
@[simp] theorem logHost_pending (a : List HostAction) (s : State) : (logHost a s).pending = s.pending := rfl
@[simp] theorem logHost_answers (a : List HostAction) (s : State) : (logHost a s).answers = s.answers := rfl
@[simp] theorem logHost_response (a : List HostAction) (s : State) : (logHost a s).response = s.response := rfl
@[simp] theorem logHost_hostLog (a : List HostAction) (s : State) : (logHost a s).hostLog = s.hostLog ++ a := rfl
@[simp] theorem logHost_draws (a : List HostAction) (s : State) : (logHost a s).draws = s.draws := rfl

@[simp] theorem raiseIrq_reg (s : State) : (raiseIrq s).reg = { s.reg with iir := s.reg.iir &&& 0xFE } := rfl
@[simp] theorem raiseIrq_rx (s : State) : (raiseIrq s).rx = s.rx := rfl
@[simp] theorem raiseIrq_tx (s : State) : (raiseIrq s).tx = s.tx := rfl
@[simp] theorem raiseIrq_linkPath (s : State) : (raiseIrq s).linkPath = s.linkPath := rfl
@[simp] theorem raiseIrq_life (s : State) : (raiseIrq s).life = s.life := rfl
@[simp] theorem raiseIrq_params (s : State) : (raiseIrq s).params = s.params := rfl
@[simp] theorem raiseIrq_pending (s : State) : (raiseIrq s).pending = s.pending := rfl
@[simp] theorem raiseIrq_answers (s : State) : (raiseIrq s).answers = s.answers := rfl
@[simp] theorem raiseIrq_response (s : State) : (raiseIrq s).response = s.response := rfl
@[simp] theorem raiseIrq_hostLog (s : State) : (raiseIrq s).hostLog = s.hostLog := rfl
@[simp] theorem raiseIrq_draws (s : State) : (raiseIrq s).draws = s.draws := rfl

@[simp] theorem clearIrq_reg (s : State) : (clearIrq s).reg = { s.reg with iir := s.reg.iir ||| 0x01 } := rfl
@[simp] theorem clearIrq_rx (s : State) : (clearIrq s).rx = s.rx := rfl
@[simp] theorem clearIrq_tx (s : State) : (clearIrq s).tx = s.tx := rfl
@[simp] theorem clearIrq_linkPath (s : State) : (clearIrq s).linkPath = s.linkPath := rfl
@[simp] theorem clearIrq_life (s : State) : (clearIrq s).life = s.life := rfl
@[simp] theorem clearIrq_params (s : State) : (clearIrq s).params = s.params := rfl
@[simp] theorem clearIrq_pending (s : State) : (clearIrq s).pending = s.pending := rfl
@[simp] theorem clearIrq_answers (s : State) : (clearIrq s).answers = s.answers := rfl
@[simp] theorem clearIrq_response (s : State) : (clearIrq s).response = s.response := rfl
@[simp] theorem clearIrq_hostLog (s : State) : (clearIrq s).hostLog = s.hostLog := rfl
@[simp] theorem clearIrq_draws (s : State) : (clearIrq s).draws = s.draws := rfl

@[simp] theorem constructed_reg (s : State) : (constructed s).reg = s.params.reset := rfl
@[simp] theorem constructed_rx (s : State) : (constructed s).rx = [] := rfl
@[simp] theorem constructed_tx (s : State) : (constructed s).tx = [] := rfl
@[simp] theorem constructed_linkPath (s : State) : (constructed s).linkPath = none := rfl
@[simp] theorem constructed_life (s : State) : (constructed s).life = .live := rfl
@[simp] theorem constructed_params (s : State) : (constructed s).params = s.params := rfl
@[simp] theorem constructed_pending (s : State) : (constructed s).pending = s.pending := rfl
@[simp] theorem constructed_answers (s : State) : (constructed s).answers = s.answers := rfl
@[simp] theorem constructed_response (s : State) : (constructed s).response = s.response := rfl
@[simp] theorem constructed_hostLog (s : State) : (constructed s).hostLog = s.hostLog := rfl
@[simp] theorem constructed_draws (s : State) : (constructed s).draws = s.draws := rfl

@[simp] theorem takePresented_reg (p : Presented) (rest : List Presented) (s : State) : (takePresented p rest s).reg = s.reg := rfl
@[simp] theorem takePresented_rx (p : Presented) (rest : List Presented) (s : State) : (takePresented p rest s).rx = s.rx := rfl
@[simp] theorem takePresented_tx (p : Presented) (rest : List Presented) (s : State) : (takePresented p rest s).tx = s.tx := rfl
@[simp] theorem takePresented_linkPath (p : Presented) (rest : List Presented) (s : State) : (takePresented p rest s).linkPath = s.linkPath := rfl
@[simp] theorem takePresented_life (p : Presented) (rest : List Presented) (s : State) : (takePresented p rest s).life = s.life := rfl
@[simp] theorem takePresented_params (p : Presented) (rest : List Presented) (s : State) : (takePresented p rest s).params = s.params := rfl
@[simp] theorem takePresented_pending (p : Presented) (rest : List Presented) (s : State) : (takePresented p rest s).pending = rest := rfl
@[simp] theorem takePresented_answers (p : Presented) (rest : List Presented) (s : State) : (takePresented p rest s).answers = p.answers := rfl
@[simp] theorem takePresented_response (p : Presented) (rest : List Presented) (s : State) : (takePresented p rest s).response = s.response := rfl
@[simp] theorem takePresented_hostLog (p : Presented) (rest : List Presented) (s : State) : (takePresented p rest s).hostLog = s.hostLog := rfl
@[simp] theorem takePresented_draws (p : Presented) (rest : List Presented) (s : State) : (takePresented p rest s).draws = s.draws := rfl

@[simp] theorem present_reg (op : Operation) (s : State) : (present op s).reg = s.reg := rfl
@[simp] theorem present_rx (op : Operation) (s : State) : (present op s).rx = s.rx := rfl
@[simp] theorem present_tx (op : Operation) (s : State) : (present op s).tx = s.tx := rfl
@[simp] theorem present_linkPath (op : Operation) (s : State) : (present op s).linkPath = s.linkPath := rfl
@[simp] theorem present_life (op : Operation) (s : State) : (present op s).life = s.life := rfl
@[simp] theorem present_params (op : Operation) (s : State) : (present op s).params = s.params := rfl
@[simp] theorem present_pending (op : Operation) (s : State) : (present op s).pending = ⟨op, HostAnswers.accepting⟩ :: s.pending := rfl
@[simp] theorem present_answers (op : Operation) (s : State) : (present op s).answers = s.answers := rfl
@[simp] theorem present_response (op : Operation) (s : State) : (present op s).response = s.response := rfl
@[simp] theorem present_hostLog (op : Operation) (s : State) : (present op s).hostLog = s.hostLog := rfl
@[simp] theorem present_draws (op : Operation) (s : State) : (present op s).draws = s.draws := rfl

@[simp] theorem presentAll_reg (ops : List Operation) (s : State) : (presentAll ops s).reg = s.reg := rfl
@[simp] theorem presentAll_rx (ops : List Operation) (s : State) : (presentAll ops s).rx = s.rx := rfl
@[simp] theorem presentAll_tx (ops : List Operation) (s : State) : (presentAll ops s).tx = s.tx := rfl
@[simp] theorem presentAll_linkPath (ops : List Operation) (s : State) : (presentAll ops s).linkPath = s.linkPath := rfl
@[simp] theorem presentAll_life (ops : List Operation) (s : State) : (presentAll ops s).life = s.life := rfl
@[simp] theorem presentAll_params (ops : List Operation) (s : State) : (presentAll ops s).params = s.params := rfl
@[simp] theorem presentAll_pending (ops : List Operation) (s : State) : (presentAll ops s).pending = ops.map (fun op => ⟨op, HostAnswers.accepting⟩) ++ s.pending := rfl
@[simp] theorem presentAll_answers (ops : List Operation) (s : State) : (presentAll ops s).answers = s.answers := rfl
@[simp] theorem presentAll_response (ops : List Operation) (s : State) : (presentAll ops s).response = s.response := rfl
@[simp] theorem presentAll_hostLog (ops : List Operation) (s : State) : (presentAll ops s).hostLog = s.hostLog := rfl
@[simp] theorem presentAll_draws (ops : List Operation) (s : State) : (presentAll ops s).draws = s.draws := rfl

@[simp] theorem chanRecv_snd_reg (s : State) : (chanRecv s).2.reg = s.reg := rfl
@[simp] theorem chanRecv_snd_rx (s : State) : (chanRecv s).2.rx = s.rx.tail := rfl
@[simp] theorem chanRecv_snd_tx (s : State) : (chanRecv s).2.tx = s.tx := rfl
@[simp] theorem chanRecv_snd_linkPath (s : State) : (chanRecv s).2.linkPath = s.linkPath := rfl
@[simp] theorem chanRecv_snd_life (s : State) : (chanRecv s).2.life = s.life := rfl
@[simp] theorem chanRecv_snd_params (s : State) : (chanRecv s).2.params = s.params := rfl
@[simp] theorem chanRecv_snd_pending (s : State) : (chanRecv s).2.pending = s.pending := rfl
@[simp] theorem chanRecv_snd_answers (s : State) : (chanRecv s).2.answers = s.answers := rfl
@[simp] theorem chanRecv_snd_response (s : State) : (chanRecv s).2.response = s.response := rfl
@[simp] theorem chanRecv_snd_hostLog (s : State) : (chanRecv s).2.hostLog = s.hostLog := rfl
@[simp] theorem chanRecv_snd_draws (s : State) : (chanRecv s).2.draws = s.draws := rfl

@[simp] theorem loseRegisters_rx (s : State) : (loseRegisters s).rx = s.rx := rfl
@[simp] theorem loseRegisters_tx (s : State) : (loseRegisters s).tx = s.tx := rfl
@[simp] theorem loseRegisters_linkPath (s : State) : (loseRegisters s).linkPath = s.linkPath := rfl
@[simp] theorem loseRegisters_life (s : State) : (loseRegisters s).life = s.life := rfl
@[simp] theorem loseRegisters_params (s : State) : (loseRegisters s).params = s.params := rfl
@[simp] theorem loseRegisters_pending (s : State) : (loseRegisters s).pending = s.pending := rfl
@[simp] theorem loseRegisters_answers (s : State) : (loseRegisters s).answers = s.answers := rfl
@[simp] theorem loseRegisters_response (s : State) : (loseRegisters s).response = s.response := rfl
@[simp] theorem loseRegisters_hostLog (s : State) : (loseRegisters s).hostLog = s.hostLog := rfl
@[simp] theorem loseRegisters_draws (s : State) : (loseRegisters s).draws = s.draws + 11 := rfl

theorem raiseIrqWhen_reg (e : Bool) (s : State) :
    (raiseIrqWhen e s).reg = if e then { s.reg with iir := s.reg.iir &&& 0xFE } else s.reg := by
  cases e <;> rfl
@[simp] theorem raiseIrqWhen_rx (e : Bool) (s : State) : (raiseIrqWhen e s).rx = s.rx := by
  cases e <;> rfl
@[simp] theorem raiseIrqWhen_tx (e : Bool) (s : State) : (raiseIrqWhen e s).tx = s.tx := by
  cases e <;> rfl
@[simp] theorem raiseIrqWhen_linkPath (e : Bool) (s : State) : (raiseIrqWhen e s).linkPath = s.linkPath := by
  cases e <;> rfl
@[simp] theorem raiseIrqWhen_life (e : Bool) (s : State) : (raiseIrqWhen e s).life = s.life := by
  cases e <;> rfl
@[simp] theorem raiseIrqWhen_params (e : Bool) (s : State) : (raiseIrqWhen e s).params = s.params := by
  cases e <;> rfl
@[simp] theorem raiseIrqWhen_pending (e : Bool) (s : State) : (raiseIrqWhen e s).pending = s.pending := by
  cases e <;> rfl
@[simp] theorem raiseIrqWhen_answers (e : Bool) (s : State) : (raiseIrqWhen e s).answers = s.answers := by
  cases e <;> rfl
@[simp] theorem raiseIrqWhen_response (e : Bool) (s : State) : (raiseIrqWhen e s).response = s.response := by
  cases e <;> rfl
@[simp] theorem raiseIrqWhen_hostLog (e : Bool) (s : State) : (raiseIrqWhen e s).hostLog = s.hostLog := by
  cases e <;> rfl
@[simp] theorem raiseIrqWhen_draws (e : Bool) (s : State) : (raiseIrqWhen e s).draws = s.draws := by
  cases e <;> rfl

theorem raiseIrqWhen_iir (e : Bool) (s : State) :
    (raiseIrqWhen e s).reg.iir = if e then s.reg.iir &&& 0xFE else s.reg.iir := by
  cases e <;> rfl
@[simp] theorem raiseIrqWhen_reg_ier (e : Bool) (s : State) : (raiseIrqWhen e s).reg.ier = s.reg.ier := by
  cases e <;> rfl
@[simp] theorem raiseIrqWhen_reg_fcr (e : Bool) (s : State) : (raiseIrqWhen e s).reg.fcr = s.reg.fcr := by
  cases e <;> rfl
@[simp] theorem raiseIrqWhen_reg_efr (e : Bool) (s : State) : (raiseIrqWhen e s).reg.efr = s.reg.efr := by
  cases e <;> rfl
@[simp] theorem raiseIrqWhen_reg_lcr (e : Bool) (s : State) : (raiseIrqWhen e s).reg.lcr = s.reg.lcr := by
  cases e <;> rfl
@[simp] theorem raiseIrqWhen_reg_mcr (e : Bool) (s : State) : (raiseIrqWhen e s).reg.mcr = s.reg.mcr := by
  cases e <;> rfl
@[simp] theorem raiseIrqWhen_reg_lsr (e : Bool) (s : State) : (raiseIrqWhen e s).reg.lsr = s.reg.lsr := by
  cases e <;> rfl
@[simp] theorem raiseIrqWhen_reg_msr (e : Bool) (s : State) : (raiseIrqWhen e s).reg.msr = s.reg.msr := by
  cases e <;> rfl
@[simp] theorem raiseIrqWhen_reg_scr (e : Bool) (s : State) : (raiseIrqWhen e s).reg.scr = s.reg.scr := by
  cases e <;> rfl
@[simp] theorem raiseIrqWhen_reg_dll (e : Bool) (s : State) : (raiseIrqWhen e s).reg.dll = s.reg.dll := by
  cases e <;> rfl
@[simp] theorem raiseIrqWhen_reg_dlm (e : Bool) (s : State) : (raiseIrqWhen e s).reg.dlm = s.reg.dlm := by
  cases e <;> rfl

end Sys2Proof.Machine
end

