-- ==== Sys2Proof/Laws/Ops.lean ====
section
/-! SUPPORT. What each shared operation can do, said once: the inversion lemma of each row form and the small facts of the
flag, channel and buffer operations. -/

namespace Sys2Proof.Machine

@[simp] theorem freeBytes_length (n : Nat) (s : State) : (freeBytes n s).length = n := by
  simp [freeBytes]

@[simp] theorem freeBytes_zero (s : State) : freeBytes 0 s = [] := rfl

/-- The buffer of a one-byte LOAD holds the driven byte alone. -/
@[simp] theorem outBuffer_one (b : Byte) (s : State) : outBuffer 1 b s = [b] := rfl

theorem outBuffer_length (length : Nat) (b : Byte) (s : State) (h : 1 ≤ length) :
    (outBuffer length b s).length = length := by
  simp only [outBuffer, List.length_cons, freeBytes_length]
  omega

/-- A LOAD row answers a next state exactly in its place in the decode, on a live device, with a length. -/
theorem loadRow_eq_next (here : Bool) (length : Nat) (s t : State) (row : State → Byte × State) :
    loadRow here length s row = .next t ↔
      s.life = .live ∧ length ≠ 0 ∧ here = true ∧ t = returnLoad length (row s).1 (row s).2 := by
  unfold loadRow
  split_ifs <;> simp_all [eq_comm]

/-- What a LOAD row answers where it is defined. -/
theorem loadRow_live (here : Bool) (length : Nat) (s : State) (row : State → Byte × State)
    (hl : s.life = .live) (hn : 1 ≤ length) (hh : here = true) :
    loadRow here length s row = .next (returnLoad length (row s).1 (row s).2) :=
  (loadRow_eq_next here length s _ row).2 ⟨hl, by omega, hh, rfl⟩

/-- A STORE row answers a next state exactly in its place in the decode, on a live device, with a first byte. -/
theorem storeRow_eq_next (here : Bool) (data : List Byte) (s t : State) (row : Byte → State → State) :
    storeRow here data s row = .next t ↔
      s.life = .live ∧ here = true ∧ ∃ v more, data = v :: more ∧ t = row v s := by
  unfold storeRow
  cases data <;> split_ifs <;> simp_all [eq_comm]

/-- What a STORE row answers where it is defined. -/
theorem storeRow_live (here : Bool) (v : Byte) (more : List Byte) (s : State) (row : Byte → State → State)
    (hl : s.life = .live) (hh : here = true) : storeRow here (v :: more) s row = .next (row v s) :=
  (storeRow_eq_next here (v :: more) s _ row).2 ⟨hl, hh, v, more, rfl, rfl⟩

/-- An operation without an addressing mode answers a next state exactly on a live device. -/
theorem whileLive_eq_next (s t : State) (act : State → State) :
    whileLive s act = .next t ↔ s.life = .live ∧ t = act s := by
  unfold whileLive
  split_ifs <;> simp_all [eq_comm]

/-- The transmit primitive either appends the byte or is refused by the environment. -/
theorem chanSend_eq (b : Byte) (s : State) :
    chanSend b s = if s.answers.txAccept then some { s with tx := s.tx ++ [b] } else none := rfl

/-- Raising the flag keeps bits 7:1 of IIR. -/
theorem raise_bit (v : Byte) (k : Nat) : (v &&& 0xFE).getLsbD k = (v.getLsbD k && decide (k ≠ 0)) := by
  by_cases hk : k < 8
  · interval_cases k <;> simp
  · simp [BitVec.getLsbD_of_ge, Nat.not_lt.1 hk]

/-- Clearing the flag keeps bits 7:1 of IIR. -/
theorem clear_bit (v : Byte) (k : Nat) : (v ||| 0x01).getLsbD k = (v.getLsbD k || decide (k = 0)) := by
  by_cases hk : k < 8
  · interval_cases k <;> simp
  · have hne : k ≠ 0 := by omega
    simp [BitVec.getLsbD_of_ge, Nat.not_lt.1 hk, hne]

/-- Each reported Line Status bit. -/
theorem lineStatus_bit (v : Byte) (r : Bool) :
    (lineStatus v r).getLsbD 0 = r ∧ (lineStatus v r).getLsbD 5 = true ∧ (lineStatus v r).getLsbD 6 = true ∧
      ∀ k ∈ [1, 2, 3, 4, 7], (lineStatus v r).getLsbD k = v.getLsbD k := by
  cases r <;> simp [lineStatus, Config.lsrTxeMask, Config.lsrDrBit]

/-- Line Status depends on the stored bits 7 and 4:1 only. -/
theorem lineStatus_mask (v : Byte) (r : Bool) : lineStatus v r &&& 0x9E = v &&& 0x9E := by
  cases r <;> (simp only [lineStatus, Config.lsrTxeMask, Config.lsrDrBit]; ext k hk; interval_cases k <;> simp)

theorem lineStatus_txe (v : Byte) (r : Bool) : lineStatus v r &&& 0x60 = 0x60 := by
  cases r <;> (simp only [lineStatus, Config.lsrTxeMask, Config.lsrDrBit]; ext k hk; interval_cases k <;> simp)

theorem lineStatus_congr (v w : Byte) (r : Bool) (h : w &&& 0x9E = v &&& 0x9E) : lineStatus w r = lineStatus v r := by
  have bits : ∀ k, (w &&& 0x9E).getLsbD k = (v &&& 0x9E).getLsbD k := fun k => by rw [h]
  have h1 := bits 1
  have h2 := bits 2
  have h3 := bits 3
  have h4 := bits 4
  have h7 := bits 7
  simp at h1 h2 h3 h4 h7
  cases r <;>
    (simp only [lineStatus, Config.lsrTxeMask, Config.lsrDrBit]; ext k hk; interval_cases k <;> simp [*])

end Sys2Proof.Machine
end

