-- ==== Sys2Proof/Laws/Exec.lean ====
section
/-! SUPPORT. What the operations that are more than one row form can do, said once: if the meaning answers a next state, it is
one of these. The plain rows are inverted by loadRow_eq_next and storeRow_eq_next. -/

namespace Sys2Proof.Machine

@[simp] theorem logHost_nil (s : State) : logHost [] s = s := by
  simp [logHost]

/-- An out-of-window LOAD answers a next state exactly at an index of 8 or more, on a live device, with a length. -/
theorem execLdOow_eq_next (address length : Nat) (s t : State) :
    execLdOow address length s = .next t ↔
      s.life = .live ∧ length ≠ 0 ∧ 8 ≤ idx address ∧ t = returnLoadFail length s := by
  unfold execLdOow
  split_ifs <;> simp_all [eq_comm, Config.nIdx]

/-- A TICK perhaps raises the flag. -/
theorem execTick_eq_next (s t : State) :
    execTick s = .next t ↔ s.life = .live ∧ t = returnDone (raiseIrqWhen (trigEnabled s && chanReady s) s) :=
  whileLive_eq_next s t _

/-- A HOST.RX appends one byte. -/
theorem execHostRx_eq_next (v : Byte) (s t : State) :
    execHostRx v s = .next t ↔ s.life = .live ∧ t = returnDone { s with rx := s.rx ++ [v] } :=
  whileLive_eq_next s t _

/-- A data STORE transmits and perhaps raises, or kills the device. -/
theorem execStData_next_cases (lane : Lane) (data : List Byte) (s t : State) (h : execStData lane data s = .next t) :
    s.life = .live ∧ dlab s.reg.lcr = false ∧ ∃ v more, data = v :: more ∧
      ((s.answers.txAccept = true ∧ t = returnStore (raiseIrqWhen (trigEnabled s) { s with tx := s.tx ++ [v] })) ∨
       (s.answers.txAccept = false ∧ t = raiseFatal .txShortWrite s)) := by
  simp only [execStData, storeRow_eq_next, Bool.not_eq_true'] at h
  obtain ⟨hl, hd, v, more, rfl, rfl⟩ := h
  refine ⟨hl, hd, v, more, rfl, ?_⟩
  cases ha : s.answers.txAccept with
  | false => exact .inr ⟨rfl, by simp [chanSend_eq, ha]⟩
  | true => exact .inl ⟨rfl, by simp [chanSend_eq, ha, trigEnabled]⟩

/-- A CONSTRUCT leaves a fresh device, or a dead one whose registers, channel and link are as before. -/
theorem execConstruct_next_cases (s t : State) (h : execConstruct s = .next t) :
    s.life = .unbuilt ∧
      ((s.answers.construct = .ok ∧ t = returnDone (constructed (logHost [.channelOpened, .channelConfiguredRaw] s))) ∨
       ∃ e actions, (e = .channelAllocFailed ∨ e = .channelConfigFailed) ∧ t = raiseFatal e (logHost actions s)) := by
  unfold execConstruct at h
  split_ifs at h with hl
  refine ⟨by simpa using hl, ?_⟩
  cases hc : s.answers.construct <;> simp only [hc] at h <;> cases h
  · exact .inl ⟨rfl, rfl⟩
  · exact .inr ⟨_, [], .inl rfl, by simp⟩
  · exact .inr ⟨_, _, .inr rfl, rfl⟩

/-- A CREATE_LINK is a no-op, takes the path, or kills the device. -/
theorem execCreateLink_next_cases (path : String) (s t : State) (h : execCreateLink path s = .next t) :
    s.life = .live ∧
      (((path = "" ∨ s.linkPath ≠ none) ∧ t = returnDone s) ∨
       (path ≠ "" ∧ s.linkPath = none ∧
          t = returnDone { logHost [.objectRemovedAt path, .linkCreatedAt path] s with linkPath := some path }) ∨
       (path ≠ "" ∧ s.linkPath = none ∧
          ∃ e actions, (e = .linkResolveFailed ∨ e = .linkCreateFailed) ∧ t = raiseFatal e (logHost actions s))) := by
  simp only [execCreateLink, whileLive_eq_next] at h
  obtain ⟨hl, ht⟩ := h
  refine ⟨hl, ?_⟩
  by_cases hp : path = "" ∨ s.linkPath ≠ none
  · exact .inl ⟨hp, by rw [ht, if_pos hp]⟩
  · rw [if_neg hp] at ht
    obtain ⟨hne, hno⟩ : path ≠ "" ∧ s.linkPath = none := by simpa using hp
    refine .inr ?_
    cases ha : s.answers.link with
    | ok => exact .inl ⟨hne, hno, by rw [ht, ha]⟩
    | resolveFailed removed =>
      cases removed with
      | true => exact .inr ⟨hne, hno, _, _, .inl rfl, by rw [ht, ha]⟩
      | false => exact .inr ⟨hne, hno, _, [], .inl rfl, by rw [ht, ha, logHost_nil]⟩
    | removeFailed => exact .inr ⟨hne, hno, _, [], .inr rfl, by rw [ht, ha, logHost_nil]⟩
    | createFailed => exact .inr ⟨hne, hno, _, _, .inr rfl, by rw [ht, ha]⟩

/-- A DESTROY answers a next state exactly on a live device, and kills it. -/
theorem execDestroy_eq_next (s t : State) :
    execDestroy s = .next t ↔
      s.life = .live ∧
        t = returnDone { loseRegisters (logHost (teardownActions s) s) with rx := [], life := .dead } :=
  whileLive_eq_next s t _

end Sys2Proof.Machine
end

