-- ==== Sys2Proof/Laws/PerInstr.lean ====
section
/-! SUPPORT. Per instruction: the operation that encodes a well-formed row is inside the contract (20_memory.md R45,
30_encoding.md R60). -/

namespace Sys2Proof.Laws.EncodesInContract

/-- The operation that encodes a well-formed row is inside the contract: a bus access has at least one byte. -/
def Statement (i : Instr) : Prop := i.wf = true → (encode i).inContract = true

theorem ldData (lane : Lane) (length : Nat) : Statement (.ldData lane length) := fun h => h

theorem ldDll (lane : Lane) (length : Nat) : Statement (.ldDll lane length) := fun h => h

theorem ldIer (lane : Lane) (length : Nat) : Statement (.ldIer lane length) := fun h => h

theorem ldDlm (lane : Lane) (length : Nat) : Statement (.ldDlm lane length) := fun h => h

theorem ldIir (lane : Lane) (length : Nat) : Statement (.ldIir lane length) := fun h => h

theorem ldEfr (lane : Lane) (length : Nat) : Statement (.ldEfr lane length) := fun h => h

theorem ldLcr (lane : Lane) (length : Nat) : Statement (.ldLcr lane length) := fun h => h

theorem ldMcr (lane : Lane) (length : Nat) : Statement (.ldMcr lane length) := fun h => h

theorem ldLsr (lane : Lane) (length : Nat) : Statement (.ldLsr lane length) := fun h => h

theorem ldMsr (lane : Lane) (length : Nat) : Statement (.ldMsr lane length) := fun h => h

theorem ldScr (lane : Lane) (length : Nat) : Statement (.ldScr lane length) := fun h => h

theorem ldOow (address : Nat) (length : Nat) : Statement (.ldOow address length) := by
  intro h
  exact (Bool.and_eq_true_iff.1 h).1

theorem stData (lane : Lane) (data : List Byte) : Statement (.stData lane data) := fun h => h

theorem stDll (lane : Lane) (data : List Byte) : Statement (.stDll lane data) := fun h => h

theorem stIer (lane : Lane) (data : List Byte) : Statement (.stIer lane data) := fun h => h

theorem stDlm (lane : Lane) (data : List Byte) : Statement (.stDlm lane data) := fun h => h

theorem stFcr (lane : Lane) (data : List Byte) : Statement (.stFcr lane data) := fun h => h

theorem stEfr (lane : Lane) (data : List Byte) : Statement (.stEfr lane data) := fun h => h

theorem stLcr (lane : Lane) (data : List Byte) : Statement (.stLcr lane data) := fun h => h

theorem stMcr (lane : Lane) (data : List Byte) : Statement (.stMcr lane data) := fun h => h

theorem stLsr (lane : Lane) (data : List Byte) : Statement (.stLsr lane data) := fun h => h

theorem stMsr (lane : Lane) (data : List Byte) : Statement (.stMsr lane data) := fun h => h

theorem stScr (lane : Lane) (data : List Byte) : Statement (.stScr lane data) := fun h => h

theorem stOow (address : Nat) (data : List Byte) : Statement (.stOow address data) := by
  intro h
  exact (Bool.and_eq_true_iff.1 h).1

theorem tick : Statement .tick := fun _ => rfl

theorem hostRx (v : Byte) : Statement (.hostRx v) := fun _ => rfl

theorem construct : Statement .construct := fun _ => rfl

theorem createLink (path : String) : Statement (.createLink path) := fun _ => rfl

theorem destroy : Statement .destroy := fun _ => rfl

end Sys2Proof.Laws.EncodesInContract
end

