-- ==== Sys2Proof/Laws/Step.lean ====
section
/-! SUPPORT. What a step and a run can do, said once: the inversion of a step, the fields no operation writes, and the
packaging of an induction over a run. -/

namespace Sys2Proof.Machine

@[simp] theorem sameButFirstByte_refl (x : Response) : SameButFirstByte x x := .inl rfl

theorem sameButFirstByte_loadOk (b c : Byte) (rest : List Byte) :
    SameButFirstByte (.loadOk (b :: rest)) (.loadOk (c :: rest)) := .inr ⟨b, c, rest, rfl, rfl⟩

/-- No operation writes the parameters, takes a presented operation or changes the host's answers. -/
theorem exec_keeps_interface (i : Instr) (s t : State) (h : exec i s = .next t) :
    t.params = s.params ∧ t.pending = s.pending ∧ t.answers = s.answers := by
  cases i
  case ldOow =>
    obtain ⟨-, -, -, rfl⟩ := (execLdOow_eq_next _ _ s t).1 h
    simp
  case stData lane data =>
    obtain ⟨-, -, v, more, -, ⟨-, rfl⟩ | ⟨-, rfl⟩⟩ := execStData_next_cases lane data s t h <;> simp
  case tick =>
    obtain ⟨-, rfl⟩ := (execTick_eq_next s t).1 h
    simp
  case hostRx =>
    obtain ⟨-, rfl⟩ := (execHostRx_eq_next _ s t).1 h
    simp
  case construct =>
    obtain ⟨-, ⟨-, rfl⟩ | ⟨e, actions, -, rfl⟩⟩ := execConstruct_next_cases s t h <;> simp
  case createLink =>
    obtain ⟨-, ⟨-, rfl⟩ | ⟨-, -, rfl⟩ | ⟨-, -, e, actions, -, rfl⟩⟩ := execCreateLink_next_cases _ s t h <;> simp
  case destroy =>
    obtain ⟨-, rfl⟩ := (execDestroy_eq_next s t).1 h
    simp
  all_goals
    simp only [exec, execLdData, execLdDll, execLdIer, execLdDlm, execLdIir, execLdEfr, execLdLcr, execLdMcr, execLdLsr,
      execLdMsr, execLdScr, execStDll, execStIer, execStDlm, execStFcr, execStEfr, execStLcr, execStMcr, execStLsr,
      execStMsr, execStScr, execStOow, loadRow_eq_next, storeRow_eq_next] at h
    first
      | (obtain ⟨-, -, -, rfl⟩ := h; simp)
      | (obtain ⟨-, -, v, more, -, rfl⟩ := h; simp)

/-- A step that answers a next state either was idle or ran the row the oldest presented operation decodes to. -/
theorem step_next_cases (s t : State) (h : step s = .next t) :
    (s.pending = [] ∧ t = s) ∨
    (∃ p rest i, s.pending = p :: rest ∧ decode s.reg.lcr p.op = .ok i ∧ exec i (takePresented p rest s) = .next t) := by
  unfold step at h
  split at h
  · next hp => exact .inl ⟨hp, by cases h; rfl⟩
  · next p rest hp =>
    split at h
    · next i hd => exact .inr ⟨p, rest, i, hp, hd, h⟩
    · cases h

theorem runSteps_zero (s : State) : runSteps 0 s = .next s := rfl

theorem runSteps_succ (k : Nat) (s : State) :
    runSteps (k + 1) s =
      match step s with
      | .next t => runSteps k t
      | .fault r => .fault r
      | .refused r => .refused r := by
  cases h : step s <;> simp [runSteps, Host.Core.run, Sys2Proof.core, h]

theorem safeRun_zero (s t : State) : SafeRun 0 s t ↔ t = s := by
  simp only [SafeRun, runSteps_zero, Host.Outcome.next.injEq]
  exact eq_comm

theorem safeRun_succ (k : Nat) (s u : State) : SafeRun (k + 1) s u ↔ ∃ t, step s = .next t ∧ SafeRun k t u := by
  unfold SafeRun
  rw [runSteps_succ]
  cases step s <;> simp

/-- The induction over a run, packaged once: a reflexive transitive relation that every step meets is met by every run. -/
theorem safeRun_relates (r : State → State → Prop) (refl : ∀ s, r s s) (trans : ∀ a b c, r a b → r b c → r a c)
    (hstep : ∀ s t, step s = .next t → r s t) (k : Nat) (s t : State) (h : SafeRun k s t) : r s t := by
  induction k generalizing s with
  | zero =>
    obtain rfl := (safeRun_zero s t).1 h
    exact refl t
  | succ k ih =>
    obtain ⟨u, hu, hk⟩ := (safeRun_succ k s t).1 h
    exact trans s u t (hstep s u hu) (ih u hk)

theorem safeRun_add (j k : Nat) (s u : State) : SafeRun (j + k) s u ↔ ∃ t, SafeRun j s t ∧ SafeRun k t u := by
  induction j generalizing s with
  | zero => simp [safeRun_zero]
  | succ j ih =>
    have : j + 1 + k = (j + k) + 1 := by omega
    rw [this, safeRun_succ]
    constructor
    · rintro ⟨v, hv, h⟩
      obtain ⟨t, ht, hu⟩ := (ih v).1 h
      exact ⟨t, (safeRun_succ j s t).2 ⟨v, hv, ht⟩, hu⟩
    · rintro ⟨t, h, hu⟩
      obtain ⟨v, hv, ht⟩ := (safeRun_succ j s t).1 h
      exact ⟨v, hv, (ih v).2 ⟨t, ht, hu⟩⟩

/-- A run ends in at most one state. -/
theorem safeRun_unique (k : Nat) (s t u : State) (ht : SafeRun k s t) (hu : SafeRun k s u) : t = u := by
  unfold SafeRun at ht hu
  rw [ht] at hu
  exact Host.Outcome.next.inj hu

/-- What `returnLoad` leaves, with the undriven lanes named only by their number. -/
theorem returnsByte_of_returnLoad (length : Nat) (b : Byte) (t : State) (h : 1 ≤ length) :
    ReturnsByte length b t (.next (returnLoad length b t)) :=
  ⟨freeBytes (length - 1) t, by rw [freeBytes_length]; omega, by simp [returnLoad, outBuffer]⟩

end Sys2Proof.Machine
end

