-- ==== Sys2Proof/Tests/Slice0.lean ====
section
/-! SUPPORT. Tests. Expected results are the spec's: the operation map of spec/opcode_table.json and the vectors of
95_test_vectors.md (named VL, VS, VT, VH, X, P there). The witnesses at the end show, for every obligation with hypotheses,
concrete states and operands that meet them. -/

namespace Sys2Proof.Tests.Slice0

open Sys2Proof Sys2Proof.Machine

/-- The start state of 95_test_vectors.md section 4: distinct register values. -/
def loadStart (lcr iir lsr : Byte) (rx : List Byte) : State :=
  { State.reset with
    reg := { ier := 0xA1, iir := iir, fcr := 0xA3, efr := 0xA4, lcr := lcr, mcr := 0xA6, lsr := lsr, msr := 0x00,
             scr := 0xA9, dll := 0xAA, dlm := 0xAB }
    rx := rx }

/-- The start state of 95_test_vectors.md sections 5 and 6. -/
def storeStart (lcr ier iir : Byte) (rx : List Byte) : State :=
  { State.reset with reg := { Regs.default with lcr := lcr, ier := ier, iir := iir }, rx := rx }

/-- A dead device. -/
def dead : State := { State.reset with life := .dead }

/-- The next state of an outcome. -/
def after : Host.Outcome State Fault Refusal → Option State
  | .next s => some s
  | .fault _ => none
  | .refused _ => none

/-- Why an outcome is refused. -/
def refusal : Host.Outcome State Fault Refusal → Option Refusal
  | .next _ => none
  | .fault _ => none
  | .refused r => some r

/-- One step on a freshly presented operation. -/
def run (op : Operation) (s : State) : Option State := after (step (present op s))

/-- `out[0]` of a successful LOAD. -/
def out0 (s : State) : Option Byte :=
  match s.response with
  | .loadOk (b :: _) => some b
  | _ => none

/-- What a LOAD vector of section 4 shows: `out[0]`, the registers and `rx` afterwards. -/
def loaded (op : Operation) (s : State) : Option (Option Byte × Regs × List Byte) :=
  (run op s).map fun t => (out0 t, t.reg, t.rx)

/-- What a STORE vector of section 5 shows: the response, the registers and `tx` afterwards. -/
def stored (op : Operation) (s : State) : Option (Response × Regs × List Byte) :=
  (run op s).map fun t => (t.response, t.reg, t.tx)

/-! ## The well-formedness checks refuse an ill-formed row -/

/-- R45: a LOAD of length zero, in every in-window LOAD row. -/
theorem test_wf_load_length_zero :
    [Instr.ldData 0 0, Instr.ldDll 0 0, Instr.ldIer 0 0, Instr.ldDlm 0 0,
     Instr.ldIir 0 0, Instr.ldEfr 0 0, Instr.ldLcr 0 0, Instr.ldMcr 0 0,
     Instr.ldLsr 0 0, Instr.ldMsr 0 0, Instr.ldScr 0 0].all (fun i => !i.wf) = true := by decide

/-- R45: a STORE of no byte, in every in-window STORE row. -/
theorem test_wf_store_no_byte :
    [Instr.stData 0 [], Instr.stDll 0 [], Instr.stIer 0 [], Instr.stDlm 0 [],
     Instr.stFcr 0 [], Instr.stEfr 0 [], Instr.stLcr 0 [], Instr.stMcr 0 [],
     Instr.stLsr 0 [], Instr.stMsr 0 [], Instr.stScr 0 []].all (fun i => !i.wf) = true := by decide

/-- R41: an out-of-window row has address 64 or more; the boundary on both sides, and length zero. -/
theorem test_wf_out_of_window :
    (Instr.ldOow 63 1).wf = false ∧ (Instr.ldOow 64 1).wf = true ∧ (Instr.ldOow 64 0).wf = false ∧
    (Instr.stOow 63 [0xFF]).wf = false ∧ (Instr.stOow 64 [0xFF]).wf = true ∧ (Instr.stOow 64 []).wf = false := by decide

/-- R45, D5: the presented operations outside the contract. -/
theorem test_contract_refuses_length_zero :
    (Operation.load 0 0).inContract = false ∧ (Operation.store 0 []).inContract = false ∧
    (Operation.load 0 1).inContract = true := by decide

/-! ## Decoding: each row from its word (the `encoding` column of spec/opcode_table.json, ignored bits chosen) -/

theorem test_decode_ldData : decode 0x03 (.load 0b000000 1) = .ok (.ldData 0b000 1) := by decide

theorem test_decode_ldDll : decode 0x80 (.load 0b000111 1) = .ok (.ldDll 0b111 1) := by decide

theorem test_decode_ldIer : decode 0x03 (.load 0b001001 1) = .ok (.ldIer 0b001 1) := by decide

theorem test_decode_ldDlm : decode 0x80 (.load 0b001100 1) = .ok (.ldDlm 0b100 1) := by decide

theorem test_decode_ldIir : decode 0x80 (.load 0b010010 1) = .ok (.ldIir 0b010 1) := by decide

theorem test_decode_ldEfr : decode 0xBF (.load 0b010101 1) = .ok (.ldEfr 0b101 1) := by decide

theorem test_decode_ldLcr : decode 0x03 (.load 0b011011 1) = .ok (.ldLcr 0b011 1) := by decide

theorem test_decode_ldMcr : decode 0x03 (.load 0b100110 1) = .ok (.ldMcr 0b110 1) := by decide

theorem test_decode_ldLsr : decode 0x03 (.load 0b101000 1) = .ok (.ldLsr 0b000 1) := by decide

theorem test_decode_ldMsr : decode 0x03 (.load 0b110001 1) = .ok (.ldMsr 0b001 1) := by decide

theorem test_decode_ldScr : decode 0x03 (.load 0b111111 1) = .ok (.ldScr 0b111 1) := by decide

theorem test_decode_ldOow : decode 0xBF (.load 0b1000000 2) = .ok (.ldOow 64 2) := by decide

theorem test_decode_stData : decode 0x7F (.store 0b000111 [0xA5]) = .ok (.stData 0b111 [0xA5]) := by decide

theorem test_decode_stDll : decode 0xBF (.store 0b000001 [0xA5]) = .ok (.stDll 0b001 [0xA5]) := by decide

theorem test_decode_stIer : decode 0x00 (.store 0b001000 [0xA5]) = .ok (.stIer 0b000 [0xA5]) := by decide

theorem test_decode_stDlm : decode 0xFF (.store 0b001110 [0xA5]) = .ok (.stDlm 0b110 [0xA5]) := by decide

theorem test_decode_stFcr : decode 0xBE (.store 0b010011 [0xA5]) = .ok (.stFcr 0b011 [0xA5]) := by decide

theorem test_decode_stEfr : decode 0xBF (.store 0b010101 [0xA5]) = .ok (.stEfr 0b101 [0xA5]) := by decide

theorem test_decode_stLcr : decode 0xBF (.store 0b011010 [0xA5]) = .ok (.stLcr 0b010 [0xA5]) := by decide

theorem test_decode_stMcr : decode 0x80 (.store 0b100100 [0xA5]) = .ok (.stMcr 0b100 [0xA5]) := by decide

theorem test_decode_stLsr : decode 0x80 (.store 0b101001 [0xA5]) = .ok (.stLsr 0b001 [0xA5]) := by decide

theorem test_decode_stMsr : decode 0xBF (.store 0b110111 [0xA5]) = .ok (.stMsr 0b111 [0xA5]) := by decide

theorem test_decode_stScr : decode 0xBF (.store 0b111000 [0xA5]) = .ok (.stScr 0b000 [0xA5]) := by decide

theorem test_decode_stOow : decode 0x00 (.store 0b1000001 [0xA5]) = .ok (.stOow 65 [0xA5]) := by decide

/-- The five rows without an address decode from their kind (R67). -/
theorem test_decode_kinds :
    decode 0xBF .tick = .ok .tick ∧ decode 0xBF (.hostRx 0x58) = .ok (.hostRx 0x58) ∧
    decode 0xBF .construct = .ok .construct ∧ decode 0xBF (.createLink "/tmp/a") = .ok (.createLink "/tmp/a") ∧
    decode 0xBF .destroy = .ok .destroy := by decide

/-- D3: no wrap at 32 or 64 bits (section 2). -/
theorem test_decode_no_wrap :
    decode 0x00 (.load 4294967296 1) = .ok (.ldOow 4294967296 1) ∧
    decode 0x00 (.load 18446744073709551616 1) = .ok (.ldOow 18446744073709551616 1) := by decide

/-- A table word and its run as the first operation after reset (log 6): the word of LD.SCR. -/
theorem test_table_word : decodeTableWord 8 0b111000 = some (.ldScr 0 1) ∧
    (after (step (State.reset.withFetchWord 8 0b111000))).map out0 = some (some 0x00) := by decide

/-! ## LOAD rows (section 4) -/

/-- VL1 -/
theorem test_ldData_pops : loaded (.load 0 1) (loadStart 0x03 0x01 0x60 [0x58, 0x59]) =
    some (some 0x58, (loadStart 0x03 0x01 0x60 [0x58, 0x59]).reg, [0x59]) := by decide

/-- VL3 -/
theorem test_ldData_empty : loaded (.load 0 1) (loadStart 0x03 0x01 0x60 []) =
    some (some 0x00, (loadStart 0x03 0x01 0x60 []).reg, []) := by decide

/-- VL5 -/
theorem test_ldDll_keeps_rx : loaded (.load 0 1) (loadStart 0x80 0x01 0x60 [0x58]) =
    some (some 0xAA, (loadStart 0x80 0x01 0x60 [0x58]).reg, [0x58]) := by decide

/-- VL7 -/
theorem test_ldIer : loaded (.load 8 1) (loadStart 0x03 0x01 0x60 []) =
    some (some 0xA1, (loadStart 0x03 0x01 0x60 []).reg, []) := by decide

/-- VL9 -/
theorem test_ldDlm : loaded (.load 12 1) (loadStart 0xBF 0x01 0x60 []) =
    some (some 0xAB, (loadStart 0xBF 0x01 0x60 []).reg, []) := by decide

/-- VL12 -/
theorem test_ldIir_divisor : loaded (.load 16 1) (loadStart 0x80 0x00 0x60 []) =
    some (some 0x00, { (loadStart 0x80 0x00 0x60 []).reg with iir := 0x01 }, []) := by decide

/-- VL13 -/
theorem test_ldIir_keeps_upper_bits : loaded (.load 16 1) (loadStart 0x03 0xC0 0x60 [0x58]) =
    some (some 0xC0, { (loadStart 0x03 0xC0 0x60 [0x58]).reg with iir := 0xC1 }, [0x58]) := by decide

/-- VL14 -/
theorem test_ldEfr_keeps_flag : loaded (.load 16 1) (loadStart 0xBF 0x00 0x60 []) =
    some (some 0xA4, (loadStart 0xBF 0x00 0x60 []).reg, []) := by decide

/-- VL16 -/
theorem test_ldLcr : loaded (.load 24 1) (loadStart 0xBF 0x01 0x60 []) =
    some (some 0xBF, (loadStart 0xBF 0x01 0x60 []).reg, []) := by decide

/-- VL17 -/
theorem test_ldMcr : loaded (.load 32 1) (loadStart 0x03 0x01 0x60 []) =
    some (some 0xA6, (loadStart 0x03 0x01 0x60 []).reg, []) := by decide

/-- VL21 -/
theorem test_ldLsr_forces_bits : loaded (.load 40 1) (loadStart 0x03 0x01 0x9F []) =
    some (some 0xFE, { (loadStart 0x03 0x01 0x9F []).reg with lsr := 0xFE }, []) := by decide

/-- VL22 -/
theorem test_ldLsr_ready : loaded (.load 40 1) (loadStart 0x03 0x01 0x00 [0x58]) =
    some (some 0x61, { (loadStart 0x03 0x01 0x00 [0x58]).reg with lsr := 0x61 }, [0x58]) := by decide

/-- VL23 -/
theorem test_ldMsr : loaded (.load 48 1) (loadStart 0x03 0x01 0x60 []) =
    some (some 0x00, (loadStart 0x03 0x01 0x60 []).reg, []) := by decide

/-- VL25 -/
theorem test_ldScr_last_offset : loaded (.load 63 1) (loadStart 0x03 0x01 0x60 []) =
    some (some 0xA9, (loadStart 0x03 0x01 0x60 []).reg, []) := by decide

/-- VL26: nothing changes, `rx` is not consumed. -/
theorem test_ldOow : (run (.load 64 1) (loadStart 0x03 0x01 0x60 [0x58])).map (fun t => (t.reg, t.rx)) =
    some ((loadStart 0x03 0x01 0x60 [0x58]).reg, [0x58]) := rfl

/-- VL26: the LOAD fails, whatever stands in `out`. -/
theorem test_ldOow_fails (s : State) (h : s.life = .live) :
    ∃ out t, exec (.ldOow 64 1) s = .next t ∧ t.response = .loadFail .outOfWindow out :=
  ⟨_, _, (execLdOow_eq_next 64 1 s _).2 ⟨h, by decide, by decide, rfl⟩, rfl⟩

/-! ## STORE rows (section 5) -/

/-- VS8 -/
theorem test_stData_first_byte_raises : stored (.store 3 [0x41, 0x42, 0x43, 0x44]) (storeStart 0x03 0x02 0x01 []) =
    some (.storeOk, { (storeStart 0x03 0x02 0x01 []).reg with iir := 0x00 }, [0x41]) := by decide

/-- VS4 -/
theorem test_stData_other_enable_bits : stored (.store 0 [0x41]) (storeStart 0x03 0xFD 0x01 []) =
    some (.storeOk, (storeStart 0x03 0xFD 0x01 []).reg, [0x41]) := by decide

/-- VS10 -/
theorem test_stDll : stored (.store 0 [0x41]) (storeStart 0xBF 0x02 0x01 []) =
    some (.storeOk, { (storeStart 0xBF 0x02 0x01 []).reg with dll := 0x41 }, []) := by decide

/-- VS11 -/
theorem test_stIer_raises_nothing : stored (.store 8 [0xFF]) (storeStart 0x03 0x00 0x01 []) =
    some (.storeOk, { (storeStart 0x03 0x00 0x01 []).reg with ier := 0xFF }, []) := by decide

/-- VS12 -/
theorem test_stIer_clears_nothing : stored (.store 8 [0x00]) (storeStart 0x03 0x02 0x00 []) =
    some (.storeOk, { (storeStart 0x03 0x02 0x00 []).reg with ier := 0x00 }, []) := by decide

/-- VS13 -/
theorem test_stDlm : stored (.store 8 [0x01]) (storeStart 0x80 0x02 0x01 []) =
    some (.storeOk, { (storeStart 0x80 0x02 0x01 []).reg with dlm := 0x01 }, []) := by decide

/-- VS15 -/
theorem test_stFcr : stored (.store 16 [0xC7]) (storeStart 0x80 0x00 0x01 []) =
    some (.storeOk, { (storeStart 0x80 0x00 0x01 []).reg with fcr := 0xC7 }, []) := by decide

/-- VS16 -/
theorem test_stEfr : stored (.store 16 [0x10]) (storeStart 0xBF 0x00 0x01 []) =
    some (.storeOk, { (storeStart 0xBF 0x00 0x01 []).reg with efr := 0x10 }, []) := by decide

/-- VS18 -/
theorem test_stLcr_in_extended_mode : stored (.store 24 [0x03]) (storeStart 0xBF 0x00 0x01 []) =
    some (.storeOk, { (storeStart 0xBF 0x00 0x01 []).reg with lcr := 0x03 }, []) := by decide

/-- VS19 -/
theorem test_stMcr : stored (.store 32 [0x1F]) (storeStart 0x03 0x00 0x01 []) =
    some (.storeOk, { (storeStart 0x03 0x00 0x01 []).reg with mcr := 0x1F }, []) := by decide

/-- VS20 -/
theorem test_stLsr_discarded : stored (.store 40 [0x00]) (storeStart 0x03 0x00 0x01 []) =
    some (.storeOk, (storeStart 0x03 0x00 0x01 []).reg, []) := by decide

/-- VS21 -/
theorem test_stMsr_discarded : stored (.store 48 [0xFF]) (storeStart 0x03 0x00 0x01 []) =
    some (.storeOk, (storeStart 0x03 0x00 0x01 []).reg, []) := by decide

/-- VS23 -/
theorem test_stScr_last_offset : stored (.store 63 [0xA5]) (storeStart 0x03 0x00 0x01 []) =
    some (.storeOk, { (storeStart 0x03 0x00 0x01 []).reg with scr := 0xA5 }, []) := by decide

/-- VS24 -/
theorem test_stOow_fails : stored (.store 64 [0x41]) (storeStart 0x03 0x02 0x01 []) =
    some (.storeFail .outOfWindow, (storeStart 0x03 0x02 0x01 []).reg, []) := by decide

/-! ## TICK, HOST.RX and the lifecycle (sections 6 and 8) -/

/-- VT9: raises in the extended mode too; nothing is consumed. -/
theorem test_tick_raises : (run .tick (storeStart 0xBF 0x02 0x01 [0x58])).map (fun t => (t.reg.iir, t.rx)) =
    some (0x00, [0x58]) := by decide

/-- VT7: never clears. -/
theorem test_tick_never_clears : (run .tick (storeStart 0x03 0x02 0x00 [])).map (fun t => t.reg.iir) = some 0x00 := by decide

/-- VH4: bytes queue in order, none translated; VF4: arrival raises nothing. -/
theorem test_hostRx : (run (.hostRx 0x0A) (storeStart 0x03 0x02 0x01 [0x00, 0xFF])).map (fun t => (t.rx, t.reg.iir)) =
    some ([0x00, 0xFF, 0x0A], 0x01) := by decide

/-- VH1. -/
theorem test_construct : after (exec .construct State.unbuilt) = some State.reset := by decide

/-- VH2: the channel cannot be allocated. -/
theorem test_construct_fails :
    (after (exec .construct { State.unbuilt with answers := { HostAnswers.accepting with construct := .allocFailed } })).map
      (fun t => (t.life, t.response)) = some (.dead, .fatal .channelAllocFailed) := by decide

/-- VH5, first: an empty path is a no-op, a path is taken. -/
theorem test_createLink : ((run (.createLink "") State.reset).map fun t => t.linkPath) = some none ∧
    ((run (.createLink "/tmp/a") State.reset).map fun t => t.linkPath) = some (some "/tmp/a") := by decide

/-- X7: idempotent after the first success. -/
theorem test_createLink_again :
    ((run (.createLink "/tmp/b") { State.reset with linkPath := some "/tmp/a" }).map fun t => (t.linkPath, t.response)) =
      some (some "/tmp/a", .done) := by decide

/-- VH6: the link removed, the channel closed, dead. -/
theorem test_destroy :
    ((run .destroy { State.reset with linkPath := some "/tmp/a" }).map fun t => (t.life, t.hostLog.drop 2)) =
      some (.dead, [.channelClosed, .linkRemovedAt "/tmp/a"]) := by decide

/-- R69, D15: refused on a dead and on an unbuilt device. -/
theorem test_destroy_refused :
    refusal (step (present .destroy dead)) = some .notLive ∧
    refusal (step (present .destroy State.unbuilt)) = some .notLive := by decide

/-- VH3, VH7, VH8: refused by the model. -/
theorem test_refused :
    refusal (step (present (.load 0 1) State.unbuilt)) = some .notLive ∧
    refusal (step (present (.store 0 [0x41]) { State.reset with life := .dead })) = some .notLive ∧
    refusal (step (present (.load 0 0) State.reset)) = some .zeroLength := by decide

/-- VS25: a refused byte kills the device, the flag is not raised. -/
theorem test_stData_short_write :
    (after (exec (.stData 0 [0x41]) { storeStart 0x03 0x02 0x01 [] with
      answers := { HostAnswers.accepting with txAccept := false } })).map
      (fun t => (t.tx, t.reg.iir, t.life, t.response)) = some ([], 0x01, .dead, .fatal .txShortWrite) := by decide

/-! ## Witnesses: states and operands that meet the hypotheses of the obligations -/

/-- A live device with a given Line Control, Interrupt Enable and `rx`. -/
def live (lcr ier : Byte) (rx : List Byte) : State := storeStart lcr ier 0x01 rx

/-- A live device whose host refuses every transmitted byte and every link, and an unbuilt one whose host refuses. -/
def refusing (link : LinkAnswer) : State :=
  { State.reset with answers := { HostAnswers.accepting with txAccept := false, link := link } }
def unbuiltWith (construct : ConstructAnswer) : State :=
  { State.unbuilt with answers := { HostAnswers.accepting with construct := construct } }

theorem wit_ConstructLeavesResetParameters :
    ((unbuiltWith .ok).life = .unbuilt ∧ (unbuiltWith .ok).answers.construct = .ok) ∧
    ((unbuiltWith .allocFailed).life = .unbuilt ∧ (unbuiltWith .allocFailed).answers.construct = .allocFailed) ∧
    ((unbuiltWith .configFailed).life = .unbuilt ∧ (unbuiltWith .configFailed).answers.construct = .configFailed) ∧
    State.reset.life ≠ .unbuilt ∧ dead.life ≠ .unbuilt := by decide

theorem wit_CreateLinkTakesFirstPathOnly :
    State.reset.life = .live ∧ "" = "" ∧
    ({ State.reset with linkPath := some "/tmp/a" } : State).life = .live ∧
    ({ State.reset with linkPath := some "/tmp/a" } : State).linkPath ≠ none ∧
    "/tmp/a" ≠ "" ∧ State.reset.linkPath = none ∧ State.reset.answers.link = .ok := by decide

theorem wit_CreateLinkFailureKillsDevice :
    ∀ link ∈ [LinkAnswer.resolveFailed true, .resolveFailed false, .removeFailed, .createFailed],
      (refusing link).life = .live ∧ "a" ≠ "" ∧ (refusing link).linkPath = none ∧ (refusing link).answers.link ≠ .ok := by
  decide

theorem wit_DestroyEndsLife : State.reset.life = .live ∧ dead.life ≠ .live ∧ State.unbuilt.life ≠ .live := by decide

theorem wit_OperationsOutsideLifeRefused :
    State.unbuilt.life ≠ .live ∧ dead.life ≠ .live ∧ Instr.destroy ≠ .construct ∧
    dead.life ≠ .unbuilt ∧ State.reset.life ≠ .unbuilt := by decide

theorem wit_HostRxAppendsByte : State.reset.life = .live := by decide

/-- Both clauses, the enable bit at each end of its range. -/
theorem wit_TickRaisesFlagWhenDataWaits :
    (∀ p ∈ [(0 : Fin 8), 7],
      ({ live 0x03 0x81 [0x00] with params := { Params.default with ierTrigBit := p } } : State).life = .live ∧
      ({ live 0x03 0x81 [0x00] with params := { Params.default with ierTrigBit := p } } : State).reg.ier.getLsbD p.val = true ∧
      ({ live 0x03 0x81 [0x00] with params := { Params.default with ierTrigBit := p } } : State).rx ≠ []) ∧
    (live 0x03 0xFD [0x58]).reg.ier.getLsbD (live 0x03 0xFD [0x58]).params.ierTrigBit.val = false ∧
    (live 0x03 0x02 []).rx = [] := by decide

theorem wit_LoadDataReceivesOldestByte :
    (live 0x7F 0x00 [0x58]).life = .live ∧ 1 ≤ 1 ∧ (live 0x7F 0x00 [0x58]).reg.lcr.getLsbD 7 = false ∧
    (live 0x7F 0x00 [0x58]).rx = 0x58 :: [] ∧ (live 0x00 0x00 []).reg.lcr.getLsbD 7 = false ∧ (live 0x00 0x00 []).rx = [] := by
  decide

/-- The three addressing modes, at the values of Line Control next to their boundaries. -/
theorem wit_RegisterLoadsReturnRegister :
    (live 0x80 0 []).life = .live ∧ (live 0x80 0 []).reg.lcr.getLsbD 7 = true ∧ (live 0xBF 0 []).reg.lcr.getLsbD 7 = true ∧
    (live 0x7F 0 []).life = .live ∧ (live 0x7F 0 []).reg.lcr.getLsbD 7 = false ∧
    (live 0xBF 0 []).life = .live ∧ (live 0xBF 0 []).reg.lcr = 0xBF := by decide

theorem reset_Inv : State.reset.Inv := by
  refine ⟨fun _ => ⟨rfl, rfl, rfl, fun _ => rfl⟩, by decide⟩

theorem wit_LoadModemStatusReturnsResetValue : State.reset.life = .live ∧ 1 ≤ 1 ∧ State.reset.Inv :=
  ⟨rfl, Nat.le_refl 1, reset_Inv⟩

theorem wit_LoadInterruptIdReturnsThenClears :
    (live 0xBE 0 []).life = .live ∧ 1 ≤ 1 ∧ (live 0xBE 0 []).reg.lcr ≠ 0xBF ∧ (live 0xC0 0 []).reg.lcr ≠ 0xBF := by decide

theorem wit_LoadLineStatusReportsReadiness : (live 0xBF 0 [0x58]).life = .live ∧ 1 ≤ 1 := by decide

/-- The window's edge, both sides. -/
theorem wit_OutOfWindowFailsAndChangesNothing :
    State.reset.life = .live ∧ 64 ≤ 64 ∧ 1 ≤ 1 ∧ [(0x00 : Byte)] ≠ [] ∧ 63 < 64 := by decide

theorem wit_StoreDataTransmitsAndRaises :
    (live 0x7F 0x02 []).life = .live ∧ (live 0x7F 0x02 []).reg.lcr.getLsbD 7 = false ∧
    (live 0x7F 0x02 []).answers.txAccept = true ∧
    (live 0x7F 0x02 []).reg.ier.getLsbD (live 0x7F 0x02 []).params.ierTrigBit.val = true ∧
    (live 0x7F 0xFD []).answers.txAccept = true ∧ (live 0x7F 0xFD []).reg.lcr.getLsbD 7 = false ∧
    (live 0x7F 0xFD []).reg.ier.getLsbD (live 0x7F 0xFD []).params.ierTrigBit.val = false := by decide

theorem wit_ShortWriteKillsDevice :
    (refusing .ok).life = .live ∧ (refusing .ok).reg.lcr.getLsbD 7 = false ∧ (refusing .ok).answers.txAccept = false := by decide

theorem wit_RegisterStoresWriteStraightThrough :
    (live 0x80 0 []).life = .live ∧ (live 0x80 0 []).reg.lcr.getLsbD 7 = true ∧ (live 0x80 0 []).reg.lcr ≠ 0xBF ∧
    (live 0x7F 0 []).life = .live ∧ (live 0x7F 0 []).reg.lcr.getLsbD 7 = false ∧
    (live 0xBF 0 []).life = .live ∧ (live 0xBF 0 []).reg.lcr = 0xBF := by decide

theorem wit_StatusStoresDiscarded : State.reset.life = .live ∧ [(0xFF : Byte)] ≠ [] := by decide

/-- The first and last offset of an index, in the window and at its edge. -/
theorem wit_EightOffsetsOfAnIndexAlias : 0 / 8 = 7 / 8 ∧ 56 / 8 = 63 / 8 ∧ 64 / 8 = 71 / 8 := by decide

theorem wit_LengthCarriesOneByteOnly : 1 ≤ 1 ∧ 1 ≤ 8 := by decide

/-- Each flag mutator completes on a live device and leaves it live; so does an operation that is none. -/
theorem wit_InterruptFlagHasThreeMutators :
    ∀ i ∈ [Instr.stData 0 [0x41], .tick, .ldIir 0 1, .stIer 0 [0x02]],
      ∃ t, exec i (live 0x03 0x02 [0x58]) = .next t ∧ (live 0x03 0x02 [0x58]).life = .live ∧ t.life = .live := by
  intro i hi
  simp only [List.mem_cons, List.not_mem_nil, or_false] at hi
  rcases hi with rfl | rfl | rfl | rfl <;> exact ⟨_, rfl, rfl, rfl⟩

theorem wit_ReceivePathFollowsQueue :
    ∀ i ∈ [Instr.hostRx 0x59, .ldData 0 1, .ldLsr 0 1, .stScr 0 [0x00]],
      ∃ t, exec i (live 0x03 0x02 [0x58]) = .next t ∧ (live 0x03 0x02 [0x58]).life = .live ∧ t.life = .live := by
  intro i hi
  simp only [List.mem_cons, List.not_mem_nil, or_false] at hi
  rcases hi with rfl | rfl | rfl | rfl <;> exact ⟨_, rfl, rfl, rfl⟩

theorem wit_TransmitPathAppendsOnly :
    (∃ t, exec (.stData 0 [0x41]) State.reset = .next t) ∧ State.reset.life = .live ∧
    (∃ t, exec (.stData 0 [0x41]) (refusing .ok) = .next t) ∧ (refusing .ok).life = .live ∧
    (∃ t, exec .destroy State.reset = .next t) :=
  ⟨⟨_, rfl⟩, rfl, ⟨_, rfl⟩, rfl, ⟨_, rfl⟩⟩

theorem wit_ReadyReportGuaranteesNextByte :
    (live 0x7F 0 [0x00]).life = .live ∧ (live 0x7F 0 [0x00]).reg.lcr.getLsbD 7 = false ∧
    (live 0x7F 0 [0x00]).rx = 0x00 :: [] := by decide

theorem wit_DivisorNeverReadThroughDataOffset :
    State.reset.life = .live ∧ (0x80 : Byte).getLsbD 7 = true ∧ (0xBF : Byte).getLsbD 7 = true ∧
    (0x7F : Byte).getLsbD 7 = false := by decide

theorem wit_TransmittedBytesKeepOrder : (live 0x7F 0 []).life = .live ∧ (live 0x7F 0 []).reg.lcr.getLsbD 7 = false := by decide

theorem wit_PseudoStoresProgramDivisorAndFeature : State.reset.life = .live ∧ (0x7F : Byte).getLsbD 7 = false := by decide

theorem wit_GetCharReceivesOnlyWhenReady :
    (live 0x7F 0 [0x58]).life = .live ∧ (live 0x7F 0 [0x58]).reg.lcr.getLsbD 7 = false ∧
    (live 0x7F 0 [0x58]).rx = 0x58 :: [] ∧ (live 0x00 0 []).life = .live ∧ (live 0x00 0 []).reg.lcr.getLsbD 7 = false ∧
    (live 0x00 0 []).rx = [] := by decide

theorem wit_DecodeOfEncodeIsInstruction :
    (Instr.ldData 7 1).wf = true ∧ (Instr.ldData 7 1).rowCond.holds 0x7F = true ∧
    (Instr.stEfr 7 [0x10]).wf = true ∧ (Instr.stEfr 7 [0x10]).rowCond.holds 0xBF = true ∧
    (Instr.stFcr 0 [0x10]).wf = true ∧ (Instr.stFcr 0 [0x10]).rowCond.holds 0xBE = true ∧
    (Instr.ldOow 64 1).wf = true ∧ (Instr.ldOow 64 1).rowCond.holds 0xFF = true := by decide

theorem wit_EncodeOfDecodeIsOperation : decode 0xBF (.load 63 8) = .ok (.ldScr 7 8) := by decide

theorem wit_DecodeTotalInsideContract :
    (present (.load 63 0) State.reset).pending = ⟨.load 63 0, HostAnswers.accepting⟩ :: [] ∧
    (Operation.load 63 0).inContract = false ∧ (Operation.store 63 []).inContract = false := by decide

/-- The row that applies is in the list, at both ends of the window. -/
theorem wit_DecodeAgreesWithOperationMap :
    (∃ r ∈ loadRows, r.applies 0 0x7F = true ∧ (decodeLoad 0x7F 0 1).mnemonic = r.mnemonic) ∧
    (∃ r ∈ loadRows, r.applies 63 0xBF = true ∧ (decodeLoad 0xBF 63 1).mnemonic = r.mnemonic) ∧
    (∃ r ∈ storeRows, r.applies 64 0xBF = true ∧ (decodeStore 0xBF 64 [0x00]).mnemonic = r.mnemonic) := by decide

/-- Each clause of the mode table at its boundary index, and a store that changes Line Control. -/
theorem wit_AddressingModeFollowsLineControl :
    ext 0xBF = true ∧ 7 / 8 = 0 ∧ 15 / 8 = 1 ∧ 23 / 8 = 2 ∧ 3 ≤ 24 / 8 ∧
    (after (exec (.stLcr 0 [0xBF]) State.reset)).map (fun t => (t.life, t.reg.lcr)) = some (.live, 0xBF) ∧
    State.reset.life = .live ∧ State.reset.reg.lcr ≠ 0xBF := by decide

/-- The next-operation clause, at a value that changes what the waiting operation is. -/
theorem wit_AddressingModeFollowsLineControl_next :
    (present (.load 16 1) State.reset).life = .live ∧
    (present (.load 16 1) State.reset).pending = ⟨.load 16 1, HostAnswers.accepting⟩ :: [] ∧
    decode 0xBF (.load 16 1) = .ok (.ldEfr 0 1) ∧ decode State.reset.reg.lcr (.load 16 1) = .ok (.ldIir 0 1) := by decide

theorem wit_StepRunsDecodedOperation :
    (present (.load 63 1) State.reset).pending = ⟨.load 63 1, HostAnswers.accepting⟩ :: [] ∧
    decode (present (.load 63 1) State.reset).reg.lcr (.load 63 1) = .ok (.ldScr 7 1) := by decide

theorem wit_IdleStepChangesNothing : State.reset.pending = [] ∧ dead.pending = [] := by decide

theorem wit_StepKeepsInvariant :
    (present (.load 40 1) State.reset).Inv ∧ ∃ t, step (present (.load 40 1) State.reset) = .next t ∧ t.life = .live :=
  ⟨⟨fun _ => ⟨rfl, rfl, rfl, fun _ => rfl⟩, by decide⟩, _, rfl, rfl⟩

theorem wit_ResetMeetsInvariant : ∃ t, exec .construct State.unbuilt = .next t ∧ t.life = .live := ⟨_, rfl, rfl⟩

theorem wit_RunsOnlyExtendTransmitTrace :
    State.reset.life ≠ .unbuilt ∧ ∃ t, SafeRun 1 (present (.store 0 [0x41]) State.reset) t ∧ t.tx = [0x41] :=
  ⟨by decide, _, rfl, rfl⟩

/-- A run of a dead device (idle), one of a live device, and a dead device with an operation presented. -/
theorem wit_DeadDeviceStaysDead :
    (∃ t, SafeRun 1 dead t) ∧ dead.life = .dead ∧
    (∃ t, SafeRun 1 (present .destroy State.reset) t) ∧ (present .destroy State.reset).life ≠ .unbuilt ∧
    (present .destroy dead).life = .dead ∧ (present .destroy dead).pending ≠ [] :=
  ⟨⟨_, rfl⟩, rfl, ⟨_, rfl⟩, by decide, rfl, by decide⟩

/-- Two different states of each pair: the relation is not equality. -/
theorem wit_FifoControlAndStoredStatusUnobservable :
    SameButUnobservable State.reset
      { State.reset with reg := { State.reset.reg with fcr := 0xC7, lsr := 0x01 } } ∧
    State.reset ≠ { State.reset with reg := { State.reset.reg with fcr := 0xC7, lsr := 0x01 } } :=
  ⟨⟨rfl, rfl⟩, by decide⟩

theorem wit_FunctionlessRegistersAffectNothing :
    SameButFunctionless State.reset
      { State.reset with reg := { State.reset.reg with efr := 1, fcr := 2, mcr := 3, scr := 4, dll := 5, dlm := 6 } } ∧
    State.reset ≠
      { State.reset with reg := { State.reset.reg with efr := 1, fcr := 2, mcr := 3, scr := 4, dll := 5, dlm := 6 } } :=
  ⟨⟨rfl, .inl rfl⟩, by decide⟩

/-- The next-answer clause, on a row that reads a functionless register and on one that does not. -/
theorem wit_FunctionlessRegistersAffectNothing_next :
    (∀ a ∈ [32, 40], SameButFunctionless (present (.load a 1) State.reset)
      { present (.load a 1) State.reset with reg := { State.reset.reg with mcr := 0x1F } }) ∧
    runSteps 0 (present (.load 32 1) State.reset) = .next (present (.load 32 1) State.reset) ∧
    decode State.reset.reg.lcr (.load 32 1) = .ok (.ldMcr 0 1) ∧ readsFunctionless (.ldMcr 0 1) = true ∧
    decode State.reset.reg.lcr (.load 40 1) = .ok (.ldLsr 0 1) ∧ readsFunctionless (.ldLsr 0 1) = false :=
  ⟨fun _ _ => ⟨rfl, .inl rfl⟩, rfl, rfl, rfl, rfl, rfl⟩

/-- Every fatal error, both bus failures and an ordinary ending are reached. -/
theorem wit_AbnormalEndingsAreThoseOfTheTable :
    (∃ t, exec .construct (unbuiltWith .allocFailed) = .next t ∧ t.response = .fatal .channelAllocFailed) ∧
    (∃ t, exec .construct (unbuiltWith .configFailed) = .next t ∧ t.response = .fatal .channelConfigFailed) ∧
    (∃ t, exec (.createLink "a") (refusing (.resolveFailed false)) = .next t ∧ t.response = .fatal .linkResolveFailed) ∧
    (∃ t, exec (.createLink "a") (refusing .createFailed) = .next t ∧ t.response = .fatal .linkCreateFailed) ∧
    (∃ t, exec (.stData 0 [0x41]) (refusing .ok) = .next t ∧ t.response = .fatal .txShortWrite) ∧
    (∃ t out, exec (.ldOow 64 1) State.reset = .next t ∧ t.response = .loadFail .outOfWindow out) ∧
    (∃ t, exec (.stOow 64 [0xFF]) State.reset = .next t ∧ t.response = .storeFail .outOfWindow) ∧
    (∃ t, exec .tick State.reset = .next t ∧ State.reset.life = .live) :=
  ⟨⟨_, rfl, rfl⟩, ⟨_, rfl, rfl⟩, ⟨_, rfl, rfl⟩, ⟨_, rfl, rfl⟩, ⟨_, rfl, rfl⟩, ⟨_, _, rfl, rfl⟩, ⟨_, rfl, rfl⟩, ⟨_, rfl, rfl⟩⟩

theorem wit_EveryRowCompletesInItsMode :
    ((Instr.stData 7 [0x41]).wf = true ∧ (Instr.stData 7 [0x41]).rowCond.holds (live 0x7F 0 []).reg.lcr = true ∧
      Instr.stData 7 [0x41] ≠ .construct ∧ (live 0x7F 0 []).life = .live ∧ (live 0x7F 0 []).answers.txAccept = true) ∧
    (Instr.construct.wf = true ∧ Instr.construct.rowCond.holds State.unbuilt.reg.lcr = true ∧ State.unbuilt.life = .unbuilt) ∧
    (encode (.ldScr 7 8) = .load 63 8 ∧ 63 < 64) ∧ (encode (.stData 7 [0x41]) = .store 7 [0x41] ∧ 7 < 64) := by decide

theorem wit_OperationsInContractRunToTheEnd :
    State.reset.life = .live ∧
    ∀ op ∈ [Operation.load 64 1, .store 63 [0xFF], .tick, .hostRx 0x58, .createLink "a"], keepsLive op = true := by decide

theorem wit_ExtendedBankHidesDataPath : (live 0xBF 0x02 [0x58]).life = .live ∧ (live 0xBF 0x02 [0x58]).reg.lcr = 0xBF := by decide

theorem wit_RaisesCollapseIntoOneAcknowledge :
    (live 0x7F 0x02 []).life = .live ∧ (live 0x7F 0x02 []).reg.lcr.getLsbD 7 = false ∧
    (live 0x7F 0x02 []).reg.ier.getLsbD (live 0x7F 0x02 []).params.ierTrigBit.val = true ∧
    [(0x41 : Byte), 0x42] ≠ [] := by decide

theorem wit_TickReRaisesWhileDataWaits :
    (live 0x7F 0x02 [0x58]).life = .live ∧ (live 0x7F 0x02 [0x58]).reg.lcr.getLsbD 7 = false ∧
    (live 0x7F 0x02 [0x58]).reg.ier.getLsbD (live 0x7F 0x02 [0x58]).params.ierTrigBit.val = true ∧
    (live 0x7F 0x02 [0x58]).rx = [0x58] := by decide

theorem wit_StoredRegistersReadBack :
    (live 0x7F 0 []).life = .live ∧ (live 0x7F 0 []).reg.lcr.getLsbD 7 = false ∧
    (live 0x80 0 []).life = .live ∧ (live 0x80 0 []).reg.lcr.getLsbD 7 = true ∧
    (live 0xBF 0 []).life = .live ∧ (live 0xBF 0 []).reg.lcr = 0xBF := by decide

theorem wit_BusPresentsWindowOffsets :
    memRead Config.uartBase 1 = some (.load 0 1) ∧ memWrite Config.uartBase [0x41] = some (.store 0 [0x41]) := by
  simp [memRead, memWrite, windowOffset]

end Sys2Proof.Tests.Slice0
end

section
/-! PROOFS. What an operation can leave, said once for all 29 rows, and where an operation has a meaning at all. -/

namespace Sys2Proof.Machine

/-- The byte a LOAD row without a side effect returns (40_load.md R82 to R84, R86 to R88, R90, R91); none for every other
row. -/
def loadedRegister (r : Regs) : Instr → Option Byte
  | .ldDll _ _ => some r.dll
  | .ldIer _ _ => some r.ier
  | .ldDlm _ _ => some r.dlm
  | .ldEfr _ _ => some r.efr
  | .ldLcr _ _ => some r.lcr
  | .ldMcr _ _ => some r.mcr
  | .ldMsr _ _ => some r.msr
  | .ldScr _ _ => some r.scr
  | _ => none

/-- The register file after an in-window STORE row other than ST.DATA (41_store.md R102 to R111; R109 and R110 discard the
byte); none for every other row. -/
def storedRegisters (v : Byte) (r : Regs) : Instr → Option Regs
  | .stDll _ _ => some { r with dll := v }
  | .stIer _ _ => some { r with ier := v }
  | .stDlm _ _ => some { r with dlm := v }
  | .stFcr _ _ => some { r with fcr := v }
  | .stEfr _ _ => some { r with efr := v }
  | .stLcr _ _ => some { r with lcr := v }
  | .stMcr _ _ => some { r with mcr := v }
  | .stLsr _ _ => some r
  | .stMsr _ _ => some r
  | .stScr _ _ => some { r with scr := v }
  | _ => none

/-- A STORE row leaves the flag and both status registers, and Line Control unless it is ST.LCR. -/
theorem storedRegisters_keeps {v : Byte} {r r' : Regs} {i : Instr} (h : storedRegisters v r i = some r') :
    r'.iir = r.iir ∧ r'.lsr = r.lsr ∧ r'.msr = r.msr ∧ (r'.lcr = r.lcr ∨ ∃ lane data, i = .stLcr lane data) := by
  cases i <;> simp only [storedRegisters, reduceCtorEq, Option.some.injEq] at h <;> subst h <;> simp

/-- `Effect s i t`: the row `i`, begun in `s`, can leave `t`. One constructor per way a row can end. -/
inductive Effect (s : State) : Instr → State → Prop
  | loadRegister {i : Instr} {b : Byte} (n : Nat) (hb : loadedRegister s.reg i = some b) : Effect s i (returnLoad n b s)
  | loadData (lane : Lane) (n : Nat) : Effect s (.ldData lane n) (returnLoad n ((chanRecv s).1.getD 0x00) (chanRecv s).2)
  | loadInterruptId (lane : Lane) (n : Nat) : Effect s (.ldIir lane n) (returnLoad n s.reg.iir (clearIrq s))
  | loadLineStatus (lane : Lane) (n : Nat) :
      Effect s (.ldLsr lane n) (returnLoad n (lineStatus s.reg.lsr (chanReady s))
        (withReg { s.reg with lsr := lineStatus s.reg.lsr (chanReady s) } s))
  | loadOutside (address n : Nat) (ha : 8 ≤ idx address) : Effect s (.ldOow address n) (returnLoadFail n s)
  | storeRegister {i : Instr} {r : Regs} (v : Byte) (hr : storedRegisters v s.reg i = some r) :
      Effect s i (returnStore (withReg r s))
  | storeDataSent (lane : Lane) (v : Byte) (more : List Byte) (ha : s.answers.txAccept = true) :
      Effect s (.stData lane (v :: more)) (returnStore (raiseIrqWhen (trigEnabled s) { s with tx := s.tx ++ [v] }))
  | storeDataRefused (lane : Lane) (v : Byte) (more : List Byte) (ha : s.answers.txAccept = false) :
      Effect s (.stData lane (v :: more)) (raiseFatal .txShortWrite s)
  | storeOutside (address : Nat) (data : List Byte) (ha : 8 ≤ idx address) :
      Effect s (.stOow address data) (returnStoreFail s)
  | tick : Effect s .tick (returnDone (raiseIrqWhen (trigEnabled s && chanReady s) s))
  | hostRx (v : Byte) : Effect s (.hostRx v) (returnDone { s with rx := s.rx ++ [v] })
  | constructDone :
      Effect s .construct (returnDone (constructed (logHost [.channelOpened, .channelConfiguredRaw] s)))
  | constructFatal (e : Fatal) (actions : List HostAction) (he : e = .channelAllocFailed ∨ e = .channelConfigFailed) :
      Effect s .construct (raiseFatal e (logHost actions s))
  | createLinkNoop (path : String) (hp : path = "" ∨ s.linkPath ≠ none) : Effect s (.createLink path) (returnDone s)
  | createLinkDone (path : String) (hp : path ≠ "") (hn : s.linkPath = none) :
      Effect s (.createLink path)
        (returnDone { logHost [.objectRemovedAt path, .linkCreatedAt path] s with linkPath := some path })
  | createLinkFatal (path : String) (e : Fatal) (actions : List HostAction) (hp : path ≠ "") (hn : s.linkPath = none)
      (he : e = .linkResolveFailed ∨ e = .linkCreateFailed) :
      Effect s (.createLink path) (raiseFatal e (logHost actions s))
  | destroy :
      Effect s .destroy (returnDone { loseRegisters (logHost (teardownActions s) s) with rx := [], life := .dead })

/-- The inversion of exec: a next state is one of the effects of its row. -/
theorem effect_of_exec {i : Instr} {s t : State} (h : exec i s = .next t) : Effect s i t := by
  cases i <;> rw [exec] at h
  case ldData lane n =>
    obtain ⟨-, -, -, rfl⟩ := (loadRow_eq_next ..).1 h
    exact .loadData lane n
  case ldIir lane n =>
    obtain ⟨-, -, -, rfl⟩ := (loadRow_eq_next ..).1 h
    exact .loadInterruptId lane n
  case ldLsr lane n =>
    obtain ⟨-, -, -, rfl⟩ := (loadRow_eq_next ..).1 h
    exact .loadLineStatus lane n
  case ldOow address n =>
    obtain ⟨-, -, ha, rfl⟩ := (execLdOow_eq_next ..).1 h
    exact .loadOutside address n ha
  case stData lane data =>
    obtain ⟨-, -, v, more, rfl, ⟨ha, rfl⟩ | ⟨ha, rfl⟩⟩ := execStData_next_cases lane data s t h
    · exact .storeDataSent lane v more ha
    · exact .storeDataRefused lane v more ha
  case stOow address data =>
    obtain ⟨-, ha, v, more, -, rfl⟩ := (storeRow_eq_next ..).1 h
    exact .storeOutside address data (of_decide_eq_true ha)
  case tick =>
    obtain ⟨-, rfl⟩ := (execTick_eq_next s t).1 h
    exact .tick
  case hostRx v =>
    obtain ⟨-, rfl⟩ := (execHostRx_eq_next v s t).1 h
    exact .hostRx v
  case construct =>
    obtain ⟨-, ⟨-, rfl⟩ | ⟨e, actions, he, rfl⟩⟩ := execConstruct_next_cases s t h
    · exact .constructDone
    · exact .constructFatal e actions he
  case createLink path =>
    obtain ⟨-, ⟨hp, rfl⟩ | ⟨hp, hn, rfl⟩ | ⟨hp, hn, e, actions, he, rfl⟩⟩ := execCreateLink_next_cases path s t h
    · exact .createLinkNoop path hp
    · exact .createLinkDone path hp hn
    · exact .createLinkFatal path e actions hp hn he
  case destroy =>
    obtain ⟨-, rfl⟩ := (execDestroy_eq_next s t).1 h
    exact .destroy
  case ldDll | ldIer | ldDlm | ldEfr | ldLcr | ldMcr | ldMsr | ldScr =>
    obtain ⟨-, -, -, rfl⟩ := (loadRow_eq_next ..).1 h
    exact .loadRegister _ rfl
  case stDll | stIer | stDlm | stFcr | stEfr | stLcr | stMcr | stLsr | stMsr | stScr =>
    obtain ⟨-, -, v, -, -, rfl⟩ := (storeRow_eq_next ..).1 h
    exact .storeRegister v rfl

/-- A LOAD row has no meaning on a device that is not live, whatever its place and length. -/
theorem loadRow_notLive (here : Bool) (n : Nat) (row : State → Byte × State) {s : State} (hl : s.life ≠ .live) :
    loadRow here n s row = .refused .notLive := if_pos hl

/-- A STORE row has no meaning on a device that is not live, whatever its place and data. -/
theorem storeRow_notLive (here : Bool) (data : List Byte) (row : Byte → State → State) {s : State} (hl : s.life ≠ .live) :
    storeRow here data s row = .refused .notLive := if_pos hl

theorem whileLive_notLive (act : State → State) {s : State} (hl : s.life ≠ .live) :
    whileLive s act = .refused .notLive := if_neg hl

/-- Every row but CONSTRUCT is refused on a device that is not live (10_state.md R31). -/
theorem exec_notLive (i : Instr) {s : State} (hl : s.life ≠ .live) (hi : i ≠ .construct) :
    exec i s = .refused .notLive := by
  cases i <;> rw [exec]
  case construct => exact absurd rfl hi
  case ldOow => exact if_pos hl
  case tick | hostRx | createLink | destroy => exact whileLive_notLive _ hl
  case ldData | ldDll | ldIer | ldDlm | ldIir | ldEfr | ldLcr | ldMcr | ldLsr | ldMsr | ldScr =>
    exact loadRow_notLive _ _ _ hl
  all_goals exact storeRow_notLive _ _ _ hl

theorem execConstruct_notUnbuilt {s : State} (hl : s.life ≠ .unbuilt) : exec .construct s = .refused .notUnbuilt :=
  if_pos hl

/-- A step runs the row the oldest presented operation decodes to (20_memory.md R47). -/
theorem step_of_pending {s : State} {p : Presented} {rest : List Presented} {i : Instr} (hp : s.pending = p :: rest)
    (hd : decode s.reg.lcr p.op = .ok i) : step s = exec i (takePresented p rest s) := by
  simp only [step, hp, hd]

/-- Settles O6: every row form refuses for the life first, and CONSTRUCT needs an unbuilt device. -/
theorem operationsOutsideLifeRefused : Obligations.OperationsOutsideLifeRefused := by
  unfold Obligations.OperationsOutsideLifeRefused
  exact fun i _ => ⟨fun hl hi => exec_notLive i hl hi, execConstruct_notUnbuilt⟩

/-- A row other than CONSTRUCT that answers a next state began on a live device. -/
theorem live_of_exec {i : Instr} {s t : State} (h : exec i s = .next t) (hi : i ≠ .construct) : s.life = .live := by
  by_contra hl
  rw [exec_notLive i hl hi] at h
  cases h

end Sys2Proof.Machine
end

section
/-! PROOFS. The invariant of 10_state.md R32 and what a run keeps of the transmit trace, the link and the parameters. -/

namespace Sys2Proof.Machine

/-- A CONSTRUCT that answers a next state began on an unbuilt device. -/
theorem unbuilt_of_construct {s t : State} (h : exec .construct s = .next t) : s.life = .unbuilt :=
  (execConstruct_next_cases s t h).1

/-- The fixed parts stay if bits 7:1 of IIR, bits 7 and 4:1 of LSR and MSR stay, and LSR bits 5 and 6 stay once set. -/
theorem fixedParts_of_kept {p : Params} {r r' : Regs} (h : fixedParts p r) (hm : r'.msr = r.msr)
    (hi : r'.iir &&& 0xFE = r.iir &&& 0xFE) (hl : r'.lsr &&& 0x9E = r.lsr &&& 0x9E)
    (ht : r.lsr &&& 0x60 = 0x60 → r'.lsr &&& 0x60 = 0x60) : fixedParts p r' := by
  obtain ⟨hmsr, hiir, hlsr, htxe⟩ := h
  exact ⟨hm.trans hmsr, hi.trans hiir, hl.trans hlsr, fun hp => ht (htxe hp)⟩

theorem fixedParts_reset (p : Params) : fixedParts p p.reset := ⟨rfl, rfl, rfl, id⟩

/-- Raising the flag, or not, moves bit 0 of IIR only. -/
theorem raiseIrqWhen_iir_mask (e : Bool) (s : State) : (raiseIrqWhen e s).reg.iir &&& 0xFE = s.reg.iir &&& 0xFE := by
  cases e
  · rfl
  · exact BitVec.and_assoc s.reg.iir 0xFE 0xFE

/-- Clearing the flag moves bit 0 of IIR only. -/
theorem clear_mask (v : Byte) : (v ||| 0x01) &&& 0xFE = v &&& 0xFE := by
  ext k hk
  interval_cases k <;> simp

theorem raiseIrqWhen_fixedParts {p : Params} (e : Bool) {s : State} (h : fixedParts p s.reg) :
    fixedParts p (raiseIrqWhen e s).reg :=
  fixedParts_of_kept h (by simp) (raiseIrqWhen_iir_mask e s) (by simp) (by simp)

/-- Every operation that leaves the device live leaves the fixed parts of the register file. -/
theorem exec_keeps_fixedParts {i : Instr} {s t : State} (h : exec i s = .next t)
    (hs : s.life = .live → fixedParts s.params s.reg) (ht : t.life = .live) : fixedParts s.params t.reg := by
  have hfix (hi : i ≠ .construct) : fixedParts s.params s.reg := hs (live_of_exec h hi)
  cases effect_of_exec h with
  | loadRegister n hb => exact hfix (by rintro rfl; cases hb)
  | storeRegister v hr =>
    obtain ⟨hiir, hlsr, hmsr, -⟩ := storedRegisters_keeps hr
    refine fixedParts_of_kept (hfix (by rintro rfl; cases hr)) ?_ ?_ ?_ ?_ <;> simp [hiir, hlsr, hmsr]
  | loadInterruptId => exact fixedParts_of_kept (hfix nofun) rfl (clear_mask _) rfl id
  | loadLineStatus =>
    exact fixedParts_of_kept (hfix nofun) rfl rfl (lineStatus_mask _ _) fun _ => lineStatus_txe _ _
  | storeDataSent | tick => exact raiseIrqWhen_fixedParts _ (hfix nofun)
  | constructDone => exact fixedParts_reset s.params
  | storeDataRefused | constructFatal | createLinkFatal | destroy => cases ht
  | loadData | loadOutside | storeOutside | hostRx | createLinkNoop | createLinkDone => exact hfix nofun

/-- A link path is kept, or taken non-empty where there was none, or dropped by CONSTRUCT. -/
theorem effect_linkPath {i : Instr} {s t : State} (e : Effect s i t) :
    t.linkPath = s.linkPath ∨ (s.linkPath = none ∧ ∃ path, path ≠ "" ∧ t.linkPath = some path) ∨
      (i = .construct ∧ t.linkPath = none) := by
  cases e with
  | createLinkDone path hp hn => exact .inr (.inl ⟨hn, path, hp, rfl⟩)
  | constructDone => exact .inr (.inr ⟨rfl, rfl⟩)
  | _ => exact .inl (by simp)

/-- Every operation keeps the invariant. -/
theorem exec_keeps_inv {i : Instr} {s t : State} (h : exec i s = .next t) (hs : s.Inv) : t.Inv := by
  obtain ⟨hfix, hlink⟩ := hs
  obtain ⟨hparams, -, -⟩ := exec_keeps_interface i s t h
  refine ⟨fun ht => hparams ▸ exec_keeps_fixedParts h hfix ht, ?_⟩
  obtain heq | ⟨-, path, hpath, heq⟩ | ⟨-, heq⟩ := effect_linkPath (effect_of_exec h)
  · rwa [heq]
  · simpa [heq] using hpath
  · simp [heq]

/-- Settles O37: an idle step changes nothing, and the operation any other step runs keeps the invariant. -/
theorem stepKeepsInvariant : Obligations.StepKeepsInvariant := by
  unfold Obligations.StepKeepsInvariant
  intro s t hs h
  obtain ⟨-, rfl⟩ | ⟨p, rest, i, -, -, hexec⟩ := step_next_cases s t h
  · exact hs
  · exact exec_keeps_inv (s := takePresented p rest s) hexec hs

/-- A CONSTRUCT leaves the invariant whatever stood before it, unless it leaves a dead device. -/
theorem construct_inv {s t : State} (h : exec .construct s = .next t) (ht : t.life = .live) : t.Inv := by
  cases effect_of_exec h with
  | constructDone => exact ⟨fun _ => fixedParts_reset s.params, nofun⟩
  | constructFatal => cases ht
  | loadRegister _ hrow | storeRegister _ hrow => cases hrow

/-- CONSTRUCT on the unbuilt device gives the reset state. -/
theorem construct_unbuilt : exec .construct State.unbuilt = .next State.reset := rfl

/-- Settles O1: each part is a closed fact of the reset state. -/
theorem resetLeavesDefaultValues : Obligations.ResetLeavesDefaultValues := by
  unfold Obligations.ResetLeavesDefaultValues
  exact ⟨rfl, rfl, rfl, rfl, rfl, rfl, rfl, rfl, construct_unbuilt⟩

/-- Settles O38: the reset state is what a CONSTRUCT leaves. -/
theorem resetMeetsInvariant : Obligations.ResetMeetsInvariant := by
  unfold Obligations.ResetMeetsInvariant
  exact ⟨construct_inv construct_unbuilt rfl, fun _ _ => construct_inv⟩

/-- Settles O36, by induction on the number of steps. -/
theorem idleStepChangesNothing : Obligations.IdleStepChangesNothing := by
  unfold Obligations.IdleStepChangesNothing
  intro s hidle k
  have hstep : step s = .next s := by simp [step, hidle]
  induction k with
  | zero => exact (safeRun_zero s s).2 rfl
  | succ k ih => exact (safeRun_succ k s s).2 ⟨s, hstep, ih⟩

/-- Settles O3: the two branches of the meaning on a live device. -/
theorem createLinkTakesFirstPathOnly : Obligations.CreateLinkTakesFirstPathOnly := by
  unfold Obligations.CreateLinkTakesFirstPathOnly
  intro path s hl
  simp only [exec, execCreateLink, whileLive_eq_next]
  constructor
  · intro hnoop
    exact ⟨hl, (if_pos hnoop).symm⟩
  · intro hp hn hans
    refine ⟨hl, ?_⟩
    rw [if_neg (by simp [hp, hn]), hans]
    rfl

/-- What a run of a device that is not unbuilt keeps: it stays built, tx and the record of host actions only grow, a link
path once set stays, and the parameters are constant. -/
def KeepsTrace (s t : State) : Prop :=
  s.life ≠ .unbuilt →
    t.life ≠ .unbuilt ∧ s.tx <+: t.tx ∧ (∀ path, s.linkPath = some path → t.linkPath = some path) ∧
      s.hostLog <+: t.hostLog ∧ t.params = s.params

theorem KeepsTrace.refl (s : State) : KeepsTrace s s :=
  fun hl => ⟨hl, List.prefix_refl _, fun _ h => h, List.prefix_refl _, rfl⟩

theorem KeepsTrace.trans {a b c : State} (hab : KeepsTrace a b) (hbc : KeepsTrace b c) : KeepsTrace a c := by
  intro hl
  obtain ⟨hlb, htx, hlink, hlog, hparams⟩ := hab hl
  obtain ⟨hlc, htx', hlink', hlog', hparams'⟩ := hbc hlb
  exact ⟨hlc, htx.trans htx', fun path h => hlink' path (hlink path h), hlog.trans hlog', hparams'.trans hparams⟩

/-- An operation other than CONSTRUCT leaves a built device, extends tx and extends the record of host actions. -/
theorem effect_extends {i : Instr} {s t : State} (e : Effect s i t) (hi : i ≠ .construct) (hl : s.life = .live) :
    t.life ≠ .unbuilt ∧ s.tx <+: t.tx ∧ s.hostLog <+: t.hostLog := by
  cases e with
  | constructDone | constructFatal => exact absurd rfl hi
  | _ => simp [hl]

theorem exec_keepsTrace {i : Instr} {s t : State} (h : exec i s = .next t) : KeepsTrace s t := by
  intro hbuilt
  have hi : i ≠ .construct := by
    rintro rfl
    exact hbuilt (unbuilt_of_construct h)
  obtain ⟨hlife, htx, hlog⟩ := effect_extends (effect_of_exec h) hi (live_of_exec h hi)
  refine ⟨hlife, htx, fun path hpath => ?_, hlog, (exec_keeps_interface i s t h).1⟩
  obtain heq | ⟨hnone, -⟩ | ⟨hconstruct, -⟩ := effect_linkPath (effect_of_exec h)
  · rwa [heq]
  · cases hnone.symm.trans hpath
  · exact absurd hconstruct hi

theorem step_keepsTrace (s t : State) (h : step s = .next t) : KeepsTrace s t := by
  obtain ⟨-, rfl⟩ | ⟨p, rest, i, -, -, hexec⟩ := step_next_cases s t h
  · exact .refl t
  · exact exec_keepsTrace (s := takePresented p rest s) hexec

/-- Settles O39: every step meets the reflexive transitive relation `KeepsTrace`, so every run does. -/
theorem runsOnlyExtendTransmitTrace : Obligations.RunsOnlyExtendTransmitTrace := by
  unfold Obligations.RunsOnlyExtendTransmitTrace
  intro k s t hbuilt hrun
  exact (safeRun_relates KeepsTrace .refl (fun _ _ _ => .trans) step_keepsTrace k s t hrun hbuilt).2

/-- Settles O22: by the effect of the row, its match on the row first. -/
theorem receivePathFollowsQueue : Obligations.ReceivePathFollowsQueue := by
  unfold Obligations.ReceivePathFollowsQueue
  intro i s t h hs ht
  have e := effect_of_exec h
  refine ⟨?_, ?_, ?_⟩
  · split
    · cases e with
      | hostRx => rfl
      | loadRegister _ hrow | storeRegister _ hrow => cases hrow
    · cases e with
      | loadData => rfl
      | loadRegister _ hrow | storeRegister _ hrow => cases hrow
    · next hrx hdata =>
      cases e with
      | hostRx v => exact absurd rfl (hrx v)
      | loadData lane n => exact absurd rfl (hdata lane n)
      | constructDone => cases hs.symm.trans (unbuilt_of_construct h)
      | destroy => cases ht
      | _ => simp
  · rintro lane n rfl
    cases e with
    | loadData => exact ⟨freeBytes (n - 1) (chanRecv s).2, by simp [outBuffer, chanRecv, List.headD_eq_head?_getD]⟩
    | loadRegister _ hrow | storeRegister _ hrow => cases hrow
  · rintro lane n rfl
    cases e with
    | loadLineStatus => exact ⟨_, _, rfl, (lineStatus_bit _ _).1⟩
    | loadRegister _ hrow | storeRegister _ hrow => cases hrow

/-- Settles O23: by the effect of the row, its match on the row first. -/
theorem transmitPathAppendsOnly : Obligations.TransmitPathAppendsOnly := by
  unfold Obligations.TransmitPathAppendsOnly
  intro i s t h hs
  have e := effect_of_exec h
  constructor
  · split
    · cases e with
      | storeDataSent _ _ _ ha => simp [ha]
      | storeDataRefused _ _ _ ha => simp [ha]
      | loadRegister _ hrow | storeRegister _ hrow => cases hrow
    · next hdata =>
      cases e with
      | storeDataSent lane v more => exact absurd rfl (hdata lane v more)
      | constructDone => cases hs.symm.trans (unbuilt_of_construct h)
      | _ => simp
  · rintro lane data rfl
    cases e with
    | storeDataSent _ _ _ ha => simp [ha, hs]
    | storeDataRefused _ _ _ ha => simp [ha]
    | loadRegister _ hrow | storeRegister _ hrow => cases hrow

end Sys2Proof.Machine
end

section
/-! PROOFS. The transmit path over a list of data STOREs (20_memory.md R50) and the addressing mode (10_state.md R22). -/

namespace Sys2Proof.Machine

/-- A step on a presented sequence runs its first operation with an accepting host, the others waiting. -/
theorem step_presentAll_cons {op : Operation} {i : Instr} (ops : List Operation) {s : State}
    (hd : decode s.reg.lcr op = .ok i) :
    step (presentAll (op :: ops) s) = exec i (presentAll ops { s with answers := .accepting }) :=
  step_of_pending (s := presentAll (op :: ops) s) (p := ⟨op, .accepting⟩) (rest := (presentAll ops s).pending) rfl hd

/-- With DLAB clear, a one-byte STORE at offset 0 is ST.DATA. -/
theorem decode_store_data {lcr : Byte} (v : Byte) (hd : lcr.getLsbD 7 = false) :
    decode lcr (.store 0 [v]) = .ok (.stData 0 [v]) := by
  have hdlab : dlab lcr = false := hd
  simp [decode, decodeStore_index0 lcr 0 [v] rfl, hdlab, laneOf]

theorem chanSend_taken (v : Byte) {s : State} (ha : s.answers.txAccept = true) :
    chanSend v s = some { s with tx := s.tx ++ [v] } := if_pos ha

theorem chanSend_refused (v : Byte) {s : State} (ha : s.answers.txAccept = false) : chanSend v s = none := by
  simp [chanSend, ha]

/-- What an ST.DATA leaves whose byte the channel takes. -/
def afterSend (v : Byte) (s : State) : State :=
  returnStore (raiseIrqWhen (trigEnabled s) { s with tx := s.tx ++ [v] })

@[simp] theorem afterSend_tx (v : Byte) (s : State) : (afterSend v s).tx = s.tx ++ [v] := by simp [afterSend]
@[simp] theorem afterSend_rx (v : Byte) (s : State) : (afterSend v s).rx = s.rx := by simp [afterSend]
@[simp] theorem afterSend_life (v : Byte) (s : State) : (afterSend v s).life = s.life := by simp [afterSend]
@[simp] theorem afterSend_reg_lcr (v : Byte) (s : State) : (afterSend v s).reg.lcr = s.reg.lcr := by simp [afterSend]

/-- Sending a byte does not touch what waits. -/
theorem afterSend_presentAll (v : Byte) (ops : List Operation) (s : State) :
    afterSend v (presentAll ops s) = presentAll ops (afterSend v s) := by
  have htrig : trigEnabled (presentAll ops s) = trigEnabled s := rfl
  rw [afterSend, afterSend, htrig]
  cases trigEnabled s <;> rfl

/-- An ST.DATA whose byte the channel takes (41_store.md R101). -/
theorem exec_stData_sent (lane : Lane) (v : Byte) (more : List Byte) {s : State} (hl : s.life = .live)
    (hd : dlab s.reg.lcr = false) (ha : s.answers.txAccept = true) :
    exec (.stData lane (v :: more)) s = .next (afterSend v s) := by
  rw [exec, execStData, storeRow_live _ _ _ _ _ hl (by rw [hd]; rfl), chanSend_taken v ha]
  rfl

/-- One step on a presented data STORE sends the byte. -/
theorem step_presentAll_store_data (v : Byte) (ops : List Operation) {s : State} (hl : s.life = .live)
    (hd : s.reg.lcr.getLsbD 7 = false) :
    step (presentAll (.store 0 [v] :: ops) s) =
      .next (presentAll ops (afterSend v { s with answers := .accepting })) := by
  rw [step_presentAll_cons ops (decode_store_data v hd), ← afterSend_presentAll]
  exact exec_stData_sent 0 v [] hl hd rfl

/-- Settles O26, by induction on the list of bytes: each data STORE appends its byte and keeps what the next one needs. -/
theorem transmittedBytesKeepOrder : Obligations.TransmittedBytesKeepOrder := by
  unfold Obligations.TransmittedBytesKeepOrder
  intro s bytes hl hd
  induction bytes generalizing s with
  | nil => exact ⟨s, rfl, by simp, rfl, hl⟩
  | cons v bytes ih =>
    obtain ⟨t, hrun, htx, hrx, hlife⟩ := ih (afterSend v { s with answers := .accepting }) (by simpa using hl) (by simpa using hd)
    refine ⟨t, (safeRun_succ _ _ t).2 ⟨_, step_presentAll_store_data v _ hl hd, hrun⟩, ?_, ?_, hlife⟩
    · simp [htx]
    · simp [hrx]

theorem modeOf_normal_iff (lcr : Byte) : modeOf lcr = .normal ↔ dlab lcr = false := by
  unfold modeOf
  split_ifs with he hd
  · simp [dlab_of_ext lcr he]
  · simp [hd]
  · simp [hd]

theorem modeOf_divisor_iff (lcr : Byte) : modeOf lcr = .divisor ↔ dlab lcr = true ∧ ext lcr = false := by
  unfold modeOf
  split_ifs with he hd
  · simp [he]
  · simp [he, hd]
  · simp [hd]

theorem modeOf_extended_iff (lcr : Byte) : modeOf lcr = .extended ↔ ext lcr = true := by
  unfold modeOf
  split_ifs with he <;> simp [he]

/-- From index 3 on, Line Control does not decide the LOAD row. -/
theorem decodeLoad_of_three_le (lcr lcr' : Byte) (address length : Nat) (h : 3 ≤ idx address) :
    decodeLoad lcr' address length = decodeLoad lcr address length := by
  unfold decodeLoad
  split
  case h_1 | h_2 | h_3 => omega
  all_goals rfl

/-- From index 3 on, Line Control does not decide the STORE row. -/
theorem decodeStore_of_three_le (lcr lcr' : Byte) (address : Nat) (data : List Byte) (h : 3 ≤ idx address) :
    decodeStore lcr' address data = decodeStore lcr address data := by
  unfold decodeStore
  split
  case h_1 | h_2 | h_3 => omega
  all_goals rfl

/-- The mode table of 10_state.md R22: the LOAD and the STORE row of each index below 3. -/
theorem mode_table (lcr : Byte) (address length : Nat) (data : List Byte) :
    let rows := ((decodeLoad lcr address length).mnemonic, (decodeStore lcr address data).mnemonic)
    (idx address = 0 → rows = if modeOf lcr = .normal then ("LD.DATA", "ST.DATA") else ("LD.DLL", "ST.DLL")) ∧
    (idx address = 1 → rows = if modeOf lcr = .normal then ("LD.IER", "ST.IER") else ("LD.DLM", "ST.DLM")) ∧
    (idx address = 2 → rows = if modeOf lcr = .extended then ("LD.EFR", "ST.EFR") else ("LD.IIR", "ST.FCR")) := by
  refine ⟨fun h => ?_, fun h => ?_, fun h => ?_⟩
  · rw [decodeLoad_index0 _ _ _ h, decodeStore_index0 _ _ _ h]
    cases hd : dlab lcr <;> simp [modeOf_normal_iff, hd, Instr.mnemonic]
  · rw [decodeLoad_index1 _ _ _ h, decodeStore_index1 _ _ _ h]
    cases hd : dlab lcr <;> simp [modeOf_normal_iff, hd, Instr.mnemonic]
  · rw [decodeLoad_index2 _ _ _ h, decodeStore_index2 _ _ _ h]
    cases he : ext lcr <;> simp [modeOf_extended_iff, he, Instr.mnemonic]

/-- A live device that stays live keeps Line Control, or the row is ST.LCR. -/
theorem exec_lcr {i : Instr} {s t : State} (h : exec i s = .next t) (hs : s.life = .live) (ht : t.life = .live) :
    t.reg.lcr = s.reg.lcr ∨ ∃ lane data, i = .stLcr lane data := by
  cases effect_of_exec h with
  | storeRegister v hr =>
    obtain ⟨-, -, -, hlcr⟩ := storedRegisters_keeps hr
    exact hlcr
  | constructDone => cases hs.symm.trans (unbuilt_of_construct h)
  | destroy => cases ht
  | _ => exact .inl (by simp)

/-- Settles O34: the mode of a value, the mode table, what keeps Line Control, and the operation after an ST.LCR. -/
theorem addressingModeFollowsLineControl : Obligations.AddressingModeFollowsLineControl := by
  unfold Obligations.AddressingModeFollowsLineControl
  refine ⟨fun lcr => ?_, fun lcr address length data => ?_, fun i s t h hs ht hne => ?_, ?_⟩
  · have hext : ext lcr = decide (lcr = 0xBF) := ext_eq_decide lcr
    refine ⟨rfl, hext, dlab_of_ext lcr, modeOf_normal_iff lcr, ?_, ?_⟩
    · simpa [hext, dlab] using modeOf_divisor_iff lcr
    · simpa [hext] using modeOf_extended_iff lcr
  · rw [← idx_eq_div]
    obtain ⟨h0, h1, h2⟩ := mode_table lcr address length data
    exact ⟨h0, h1, h2, fun h lcr' =>
      ⟨decodeLoad_of_three_le lcr lcr' address length h, decodeStore_of_three_le lcr lcr' address data h⟩⟩
  · exact (exec_lcr h hs ht).resolve_left hne
  · intro s lane v more p rest i hl hp hd
    exact ⟨returnStore (withReg { s.reg with lcr := v } s), by rw [exec, execStLcr, storeRow_live _ _ _ _ _ hl rfl], rfl,
      step_of_pending hp hd⟩

end Sys2Proof.Machine
end

section
/-! PROOFS. Two runs side by side: what relates two outcomes row form by row form, and the registers that decide nothing
(70_reset_and_hazards.md R182; 92_eei_decisions.md D18). -/

namespace Sys2Proof.Machine

theorem OutcomesRelated.mono {r q : State → State → Prop} {o o' : Host.Outcome State Fault Refusal}
    (h : OutcomesRelated r o o') (himp : ∀ s t, r s t → q s t) : OutcomesRelated q o o' := by
  cases o <;> cases o'
  case next.next s t => exact himp s t h
  all_goals exact h

/-- Two LOADs of one row are related if the states they would leave are. -/
theorem loadRow_related {r : State → State → Prop} {here : Bool} {n : Nat} {s t : State} {row : State → Byte × State}
    (hl : t.life = s.life) (h : r (returnLoad n (row s).1 (row s).2) (returnLoad n (row t).1 (row t).2)) :
    OutcomesRelated r (loadRow here n s row) (loadRow here n t row) := by
  unfold loadRow
  rw [hl]
  split_ifs
  · exact rfl
  · exact rfl
  · exact rfl
  · exact h

/-- Two STOREs of one row are related if the states they would leave are, whatever the byte. -/
theorem storeRow_related {r : State → State → Prop} {here : Bool} {data : List Byte} {s t : State}
    {row : Byte → State → State} (hl : t.life = s.life) (h : ∀ v, r (row v s) (row v t)) :
    OutcomesRelated r (storeRow here data s row) (storeRow here data t row) := by
  unfold storeRow
  rw [hl]
  cases data with
  | nil => split_ifs <;> exact rfl
  | cons v more =>
    split_ifs
    · exact rfl
    · exact rfl
    · exact h v

theorem whileLive_related {r : State → State → Prop} {s t : State} {act : State → State} (hl : t.life = s.life)
    (h : r (act s) (act t)) : OutcomesRelated r (whileLive s act) (whileLive t act) := by
  unfold whileLive
  rw [hl]
  split_ifs
  · exact h
  · exact rfl

theorem execLdOow_related {r : State → State → Prop} {address n : Nat} {s t : State} (hl : t.life = s.life)
    (h : r (returnLoadFail n s) (returnLoadFail n t)) :
    OutcomesRelated r (execLdOow address n s) (execLdOow address n t) := by
  unfold execLdOow
  rw [hl]
  split_ifs
  · exact rfl
  · exact rfl
  · exact rfl
  · exact h

/-- Two data STOREs are related if the sent and the refused ending are, whether or not the flag is raised. -/
theorem execStData_related {r : State → State → Prop} {lane : Lane} {data : List Byte} {s t : State}
    (hl : t.life = s.life) (hlcr : t.reg.lcr = s.reg.lcr) (ha : t.answers = s.answers) (htrig : trigEnabled t = trigEnabled s)
    (hsent : ∀ e v, r (returnStore (raiseIrqWhen e { s with tx := s.tx ++ [v] }))
      (returnStore (raiseIrqWhen e { t with tx := t.tx ++ [v] })))
    (hfatal : r (raiseFatal .txShortWrite s) (raiseFatal .txShortWrite t)) :
    OutcomesRelated r (execStData lane data s) (execStData lane data t) := by
  unfold execStData
  rw [hlcr]
  refine storeRow_related hl fun v => ?_
  cases hs : s.answers.txAccept with
  | false =>
    rw [chanSend_refused v hs, chanSend_refused v (ha ▸ hs)]
    exact hfatal
  | true =>
    have hafter : r (afterSend v s) (afterSend v t) := by
      rw [afterSend, afterSend, htrig]
      exact hsent _ v
    rw [chanSend_taken v hs, chanSend_taken v (ha ▸ hs)]
    exact hafter

/-- Two TICKs are related if the raised and the unraised ending are. -/
theorem execTick_related {r : State → State → Prop} {s t : State} (hl : t.life = s.life)
    (htrig : trigEnabled t = trigEnabled s) (hready : chanReady t = chanReady s)
    (h : ∀ e, r (returnDone (raiseIrqWhen e s)) (returnDone (raiseIrqWhen e t))) :
    OutcomesRelated r (execTick s) (execTick t) := by
  refine whileLive_related hl ?_
  rw [htrig, hready]
  exact h _

/-- Two CONSTRUCTs are related if the built and the fatal endings are. -/
theorem execConstruct_related {r : State → State → Prop} {s t : State} (hl : t.life = s.life) (ha : t.answers = s.answers)
    (hdone : ∀ actions, r (returnDone (constructed (logHost actions s))) (returnDone (constructed (logHost actions t))))
    (hfatal : ∀ e actions, r (raiseFatal e (logHost actions s)) (raiseFatal e (logHost actions t))) :
    OutcomesRelated r (execConstruct s) (execConstruct t) := by
  have hplain (e : Fatal) : r (raiseFatal e s) (raiseFatal e t) := by simpa using hfatal e []
  unfold execConstruct
  rw [hl, ha]
  split_ifs
  · exact rfl
  · cases s.answers.construct
    · exact hdone _
    · exact hplain _
    · exact hfatal _ _

/-- Two CREATE_LINKs are related if the three kinds of ending are. -/
theorem execCreateLink_related {r : State → State → Prop} {path : String} {s t : State} (hl : t.life = s.life)
    (ha : t.answers = s.answers) (hk : t.linkPath = s.linkPath) (hnoop : r (returnDone s) (returnDone t))
    (hdone : ∀ actions, r (returnDone { logHost actions s with linkPath := some path })
      (returnDone { logHost actions t with linkPath := some path }))
    (hfatal : ∀ e actions, r (raiseFatal e (logHost actions s)) (raiseFatal e (logHost actions t))) :
    OutcomesRelated r (execCreateLink path s) (execCreateLink path t) := by
  have hplain (e : Fatal) : r (raiseFatal e s) (raiseFatal e t) := by simpa using hfatal e []
  refine whileLive_related hl ?_
  simp only [hk, ha]
  split_ifs
  · exact hnoop
  · cases s.answers.link with
    | ok => exact hdone _
    | resolveFailed removed =>
      cases removed
      · exact hplain _
      · exact hfatal _ _
    | removeFailed => exact hplain _
    | createFailed => exact hfatal _ _

/-- A relation between two states that every row keeps, with what a step reads of a state besides. -/
structure Simulates (r : State → State → Prop) : Prop where
  pending : ∀ {s t}, r s t → t.pending = s.pending
  lcr : ∀ {s t}, r s t → t.reg.lcr = s.reg.lcr
  take : ∀ p rest {s t}, r s t → r (takePresented p rest s) (takePresented p rest t)
  exec : ∀ i {s t}, r s t → OutcomesRelated r (exec i s) (exec i t)

theorem Simulates.step {r : State → State → Prop} (hr : Simulates r) {s t : State} (h : r s t) :
    OutcomesRelated r (step s) (step t) := by
  unfold Machine.step
  rw [hr.pending h, hr.lcr h]
  split
  · exact h
  · next p rest _ =>
    split
    · exact hr.exec _ (hr.take p rest h)
    · exact rfl

/-- The induction over two runs, packaged once. -/
theorem Simulates.runSteps {r : State → State → Prop} (hr : Simulates r) (k : Nat) {s t : State} (h : r s t) :
    OutcomesRelated r (runSteps k s) (runSteps k t) := by
  induction k generalizing s t with
  | zero => exact h
  | succ k ih =>
    rw [runSteps_succ, runSteps_succ]
    have hstep := hr.step h
    cases hs : Machine.step s <;> cases ht : Machine.step t <;> rw [hs, ht] at hstep
    case next.next => exact ih hstep
    case fault.fault | refused.refused => exact hstep
    all_goals exact hstep.elim

/-- FCR and the stored Line Status bits 0, 5 and 6 decide no row: each row keeps them the only difference. -/
theorem exec_sameButUnobservable (i : Instr) {s t : State} (h : SameButUnobservable s t) :
    OutcomesRelated SameButUnobservable (exec i s) (exec i t) := by
  obtain ⟨ht, hm⟩ := h
  obtain ⟨f, l, rfl⟩ : ∃ f l, t = { s with reg := { s.reg with fcr := f, lsr := l } } := ⟨_, _, ht⟩
  cases i <;> rw [exec, exec]
  case ldLsr =>
    refine loadRow_related rfl ?_
    have hreport : lineStatus l (chanReady s) = lineStatus s.reg.lsr (chanReady s) := lineStatus_congr _ _ _ hm
    exact hreport ▸ ⟨rfl, rfl⟩
  case ldData | ldDll | ldIer | ldDlm | ldIir | ldEfr | ldLcr | ldMcr | ldMsr | ldScr =>
    exact loadRow_related rfl ⟨rfl, hm⟩
  case ldOow => exact execLdOow_related rfl ⟨rfl, hm⟩
  case stData =>
    refine execStData_related rfl rfl rfl rfl (fun e v => ?_) ⟨rfl, hm⟩
    cases e <;> exact ⟨rfl, hm⟩
  case tick =>
    refine execTick_related rfl rfl rfl fun e => ?_
    cases e <;> exact ⟨rfl, hm⟩
  case hostRx => exact whileLive_related rfl ⟨rfl, hm⟩
  case construct => exact execConstruct_related rfl rfl (fun _ => ⟨rfl, rfl⟩) fun _ _ => ⟨rfl, hm⟩
  case createLink =>
    exact execCreateLink_related rfl rfl rfl ⟨rfl, hm⟩ (fun _ => ⟨rfl, hm⟩) fun _ _ => ⟨rfl, hm⟩
  case destroy => exact whileLive_related rfl ⟨rfl, rfl⟩
  case stDll | stIer | stDlm | stFcr | stEfr | stLcr | stMcr | stLsr | stMsr | stScr | stOow =>
    exact storeRow_related rfl fun v => ⟨rfl, hm⟩

theorem simulates_sameButUnobservable : Simulates SameButUnobservable where
  pending h := by rw [h.1]
  lcr h := by rw [h.1]
  take _ _ _ _ h := by
    obtain ⟨ht, hm⟩ := h
    exact ⟨congrArg (takePresented _ _) ht, hm⟩
  exec := exec_sameButUnobservable

/-- Settles O41: each row keeps the relation, so every pair of runs does. -/
theorem fifoControlAndStoredStatusUnobservable : Obligations.FifoControlAndStoredStatusUnobservable := by
  unfold Obligations.FifoControlAndStoredStatusUnobservable
  exact fun k _ _ h => simulates_sameButUnobservable.runSteps k h

/-- What a row keeps of two states that differ in the registers without function: they differ in nothing else afterwards,
and unless the row returns one of them both answered the same. -/
def AnswersAlike (i : Instr) (s t : State) : Prop :=
  SameButFunctionless s t ∧ (readsFunctionless i = false → s.response = t.response)

/-- Two states with one response that differ in the registers without function only. -/
theorem AnswersAlike.of_eq {i : Instr} {s t : State}
    (ht : t = { s with reg := { s.reg with efr := t.reg.efr, fcr := t.reg.fcr, mcr := t.reg.mcr, scr := t.reg.scr,
                                           dll := t.reg.dll, dlm := t.reg.dlm }
                       response := t.response })
    (hr : s.response = t.response) : AnswersAlike i s t := ⟨⟨ht, .inl hr⟩, fun _ => hr⟩

/-- A row that returns a register without function answers with a byte of its own in `out[0]`. -/
theorem AnswersAlike.of_load {i : Instr} (n : Nat) (b c : Byte) {s t : State} (hi : readsFunctionless i = true)
    (h : SameButFunctionless s t) : AnswersAlike i (returnLoad n b s) (returnLoad n c t) := by
  obtain ⟨ht, -⟩ := h
  refine ⟨⟨?_, ?_⟩, by simp [hi]⟩
  · rw [ht]
    rfl
  · rw [ht]
    exact sameButFirstByte_loadOk b c (freeBytes (n - 1) s)

/-- The registers without function decide no row: each row keeps them, and the byte a LOAD of one returns, the only
difference. -/
theorem exec_answersAlike (i : Instr) {s t : State} (h : SameButFunctionless s t) :
    OutcomesRelated (AnswersAlike i) (exec i s) (exec i t) := by
  have hst := h
  obtain ⟨ht, -⟩ := h
  obtain ⟨r, a, rfl⟩ : ∃ (r : Regs) (a : Response), t =
      { s with
        reg := { s.reg with efr := r.efr, fcr := r.fcr, mcr := r.mcr, scr := r.scr, dll := r.dll, dlm := r.dlm }
        response := a } := ⟨t.reg, t.response, ht⟩
  cases i <;> rw [exec, exec]
  case ldDll | ldDlm | ldEfr | ldMcr | ldScr => exact loadRow_related rfl (.of_load _ _ _ rfl hst)
  case ldData | ldIer | ldIir | ldLcr | ldLsr | ldMsr => exact loadRow_related rfl (.of_eq rfl rfl)
  case ldOow => exact execLdOow_related rfl (.of_eq rfl rfl)
  case stData =>
    refine execStData_related rfl rfl rfl rfl (fun e v => ?_) (.of_eq rfl rfl)
    cases e <;> exact .of_eq rfl rfl
  case tick =>
    refine execTick_related rfl rfl rfl fun e => ?_
    cases e <;> exact .of_eq rfl rfl
  case hostRx | destroy => exact whileLive_related rfl (.of_eq rfl rfl)
  case construct => exact execConstruct_related rfl rfl (fun _ => .of_eq rfl rfl) fun _ _ => .of_eq rfl rfl
  case createLink =>
    exact execCreateLink_related rfl rfl rfl (.of_eq rfl rfl) (fun _ => .of_eq rfl rfl) fun _ _ => .of_eq rfl rfl
  case stDll | stIer | stDlm | stFcr | stEfr | stLcr | stMcr | stLsr | stMsr | stScr | stOow =>
    exact storeRow_related rfl fun v => .of_eq rfl rfl

theorem simulates_sameButFunctionless : Simulates SameButFunctionless where
  pending h := by rw [h.1]
  lcr h := by rw [h.1]
  take _ _ _ _ h := by
    obtain ⟨ht, hr⟩ := h
    exact ⟨congrArg (takePresented _ _) ht, hr⟩
  exec i _ _ h := (exec_answersAlike i h).mono fun _ _ => And.left

/-- The next operation gives two such states the same answer, but for the byte a LOAD of such a register returns. -/
theorem step_answersAlike {s t : State} {p : Presented} {rest : List Presented} {i : Instr} (h : SameButFunctionless s t)
    (hp : s.pending = p :: rest) (hd : decode s.reg.lcr p.op = .ok i) :
    OutcomesRelated (AnswersAlike i) (step s) (step t) := by
  have hp' : t.pending = p :: rest := (simulates_sameButFunctionless.pending h).trans hp
  have hd' : decode t.reg.lcr p.op = .ok i := by rwa [simulates_sameButFunctionless.lcr h]
  rw [step_of_pending hp hd, step_of_pending hp' hd']
  exact exec_answersAlike i (simulates_sameButFunctionless.take p rest h)

/-- Settles O42: each row keeps the relation, so every pair of runs does, and the next operation answers alike. -/
theorem functionlessRegistersAffectNothing : Obligations.FunctionlessRegistersAffectNothing := by
  unfold Obligations.FunctionlessRegistersAffectNothing
  intro k s t h
  have hruns := simulates_sameButFunctionless.runSteps k h
  refine ⟨hruns, fun a b p rest i ha hb hp hd => ?_⟩
  have hab : SameButFunctionless a b := by rwa [ha, hb] at hruns
  refine (step_answersAlike hab hp hd).mono fun u v huv => ?_
  obtain ⟨⟨-, hfirst⟩, hsame⟩ := huv
  cases hi : readsFunctionless i
  · simpa using hsame hi
  · simpa using hfirst

end Sys2Proof.Machine
end

section
/-! PROOFS. The window (20_memory.md R41 to R46, R53): which row an access resolves to, and what of its address and length
its outcome depends on. -/

namespace Sys2Proof.Machine

theorem decode_load {n : Nat} (lcr : Byte) (a : Nat) (hn : 1 ≤ n) :
    decode lcr (.load a n) = .ok (decodeLoad lcr a n) := if_neg (by omega)

theorem decode_store {data : List Byte} (lcr : Byte) (a : Nat) (hdata : data ≠ []) :
    decode lcr (.store a data) = .ok (decodeStore lcr a data) := if_neg hdata

theorem eight_le_idx_iff (a : Nat) : 8 ≤ idx a ↔ 64 ≤ a := by
  rw [idx_eq_div]
  omega

theorem rowAddress_of_idx {a k : Nat} (h : idx a = k) : rowAddress k (laneOf a) = a := h ▸ rowAddress_idx a

/-- A LOAD of at least one byte resolves to a row that admits its operands, in the row's mode, and encodes that LOAD. -/
theorem decodeLoad_spec (lcr : Byte) (a : Nat) {n : Nat} (hn : 1 ≤ n) :
    (decodeLoad lcr a n).wf = true ∧ (decodeLoad lcr a n).rowCond.holds lcr = true ∧
      encode (decodeLoad lcr a n) = .load a n := by
  have hwf : decide (1 ≤ n) = true := decide_eq_true hn
  unfold decodeLoad
  split
  case h_1 | h_2 | h_3 =>
    split_ifs
    all_goals
      refine ⟨hwf, ?_, congrArg (Operation.load · n) (rowAddress_of_idx ‹_›)⟩
      simp [Instr.rowCond, RowCond.holds, *]
  case h_9 =>
    simp only [imp_false] at *
    have ha : 64 ≤ a := (eight_le_idx_iff a).1 (by omega)
    exact ⟨Bool.and_eq_true_iff.2 ⟨hwf, decide_eq_true ha⟩, rfl, rfl⟩
  all_goals exact ⟨hwf, rfl, congrArg (Operation.load · n) (rowAddress_of_idx ‹_›)⟩

/-- A STORE of at least one byte resolves to a row that admits its operands, in the row's mode, and encodes that STORE. -/
theorem decodeStore_spec (lcr : Byte) (a : Nat) {data : List Byte} (hdata : data ≠ []) :
    (decodeStore lcr a data).wf = true ∧ (decodeStore lcr a data).rowCond.holds lcr = true ∧
      encode (decodeStore lcr a data) = .store a data := by
  have hwf : (!data.isEmpty) = true := by simpa using hdata
  unfold decodeStore
  split
  case h_1 | h_2 | h_3 =>
    split_ifs
    all_goals
      refine ⟨hwf, ?_, congrArg (Operation.store · data) (rowAddress_of_idx ‹_›)⟩
      simp [Instr.rowCond, RowCond.holds, *]
  case h_9 =>
    simp only [imp_false] at *
    have ha : 64 ≤ a := (eight_le_idx_iff a).1 (by omega)
    exact ⟨Bool.and_eq_true_iff.2 ⟨hwf, decide_eq_true ha⟩, rfl, rfl⟩
  all_goals exact ⟨hwf, rfl, congrArg (Operation.store · data) (rowAddress_of_idx ‹_›)⟩

/-- Every operation inside the contract resolves to a row (30_encoding.md R67). -/
theorem exists_decode {op : Operation} (lcr : Byte) (h : op.inContract = true) : ∃ i, decode lcr op = .ok i := by
  cases op with
  | load a n => exact ⟨_, decode_load lcr a (of_decide_eq_true h)⟩
  | store a data => exact ⟨_, decode_store lcr a (by simpa [Operation.inContract] using h)⟩
  | tick | hostRx | construct | createLink | destroy => exact ⟨_, rfl⟩

/-- The row an operation resolves to admits its operands, is in its mode, and encodes the operation. -/
theorem decode_spec {lcr : Byte} {op : Operation} {i : Instr} (h : decode lcr op = .ok i) :
    i.wf = true ∧ i.rowCond.holds lcr = true ∧ encode i = op := by
  cases op with
  | load a n =>
    rw [decode] at h
    split_ifs at h with hn
    cases h
    exact decodeLoad_spec lcr a (by omega)
  | store a data =>
    rw [decode] at h
    split_ifs at h with hdata
    cases h
    exact decodeStore_spec lcr a hdata
  | tick | hostRx | construct | createLink | destroy =>
    cases h
    exact ⟨rfl, rfl, rfl⟩

/-- Only an address out of the window resolves to LD.OOW. -/
theorem outside_of_decode_ldOow {lcr : Byte} {a n b m : Nat} (h : decode lcr (.load a n) = .ok (.ldOow b m)) : 64 ≤ a := by
  obtain ⟨hwf, -, henc⟩ := decode_spec h
  cases henc
  exact of_decide_eq_true (Bool.and_eq_true_iff.1 hwf).2

/-- Only an address out of the window resolves to ST.OOW. -/
theorem outside_of_decode_stOow {lcr : Byte} {a b : Nat} {data d : List Byte}
    (h : decode lcr (.store a data) = .ok (.stOow b d)) : 64 ≤ a := by
  obtain ⟨hwf, -, henc⟩ := decode_spec h
  cases henc
  exact of_decide_eq_true (Bool.and_eq_true_iff.1 hwf).2

theorem exec_ldOow {a n : Nat} {s : State} (hl : s.life = .live) (hn : 1 ≤ n) (ha : 8 ≤ idx a) :
    exec (.ldOow a n) s = .next (returnLoadFail n s) :=
  (execLdOow_eq_next ..).2 ⟨hl, by omega, ha, rfl⟩

theorem exec_stOow {a : Nat} {data : List Byte} {s : State} (hl : s.life = .live) (hdata : data ≠ []) (ha : 8 ≤ idx a) :
    exec (.stOow a data) s = .next (returnStoreFail s) := by
  obtain ⟨v, more, rfl⟩ := List.exists_cons_of_ne_nil hdata
  rw [exec]
  exact storeRow_live _ _ _ _ _ hl (decide_eq_true ha)

/-- Settles O14: the index is 8 or more exactly from address 64 on. -/
theorem outOfWindowFailsAndChangesNothing : Obligations.OutOfWindowFailsAndChangesNothing := by
  unfold Obligations.OutOfWindowFailsAndChangesNothing
  intro a s hl
  refine ⟨fun ha n hn => ?_, fun ha data hdata => ?_, fun ha n b m h => ?_, fun ha data b d h => ?_⟩
  · have hidx := (eight_le_idx_iff a).2 ha
    exact ⟨by rw [decode_load _ _ hn, decodeLoad_outside _ _ _ hidx], freeBytes n s, freeBytes_length n s,
      exec_ldOow hl hn hidx⟩
  · have hidx := (eight_le_idx_iff a).2 ha
    exact ⟨by rw [decode_store _ _ hdata, decodeStore_outside _ _ _ hidx], exec_stOow hl hdata hidx⟩
  · exact absurd ha (not_lt.2 (outside_of_decode_ldOow h))
  · exact absurd ha (not_lt.2 (outside_of_decode_stOow h))

/-- The meaning of a LOAD uses of its address the index only (20_memory.md R43). -/
theorem exec_decodeLoad_of_idx (lcr : Byte) {a b : Nat} (n : Nat) (s : State) (h : idx a = idx b) :
    exec (decodeLoad lcr a n) s = exec (decodeLoad lcr b n) s := by
  unfold decodeLoad
  rw [← h]
  split
  case h_1 | h_2 | h_3 => split_ifs <;> rfl
  case h_9 => rw [exec, exec, execLdOow, execLdOow, h]
  all_goals rfl

/-- The meaning of a STORE uses of its address the index only (20_memory.md R43). -/
theorem exec_decodeStore_of_idx (lcr : Byte) {a b : Nat} (data : List Byte) (s : State) (h : idx a = idx b) :
    exec (decodeStore lcr a data) s = exec (decodeStore lcr b data) s := by
  unfold decodeStore
  rw [← h]
  split
  case h_1 | h_2 | h_3 => split_ifs <;> rfl
  case h_9 => rw [exec, exec, execStOow, execStOow, h]
  all_goals rfl

/-- A step on a presented LOAD of at least one byte. -/
theorem step_load (s : State) (answers : HostAnswers) (rest : List Presented) (a : Nat) {n : Nat} (hn : 1 ≤ n) :
    step { s with pending := ⟨.load a n, answers⟩ :: rest } =
      exec (decodeLoad s.reg.lcr a n) (takePresented ⟨.load a n, answers⟩ rest s) :=
  step_of_pending rfl (decode_load _ _ hn)

/-- A step on a presented STORE of at least one byte. -/
theorem step_store (s : State) (answers : HostAnswers) (rest : List Presented) (a : Nat) {data : List Byte}
    (hdata : data ≠ []) :
    step { s with pending := ⟨.store a data, answers⟩ :: rest } =
      exec (decodeStore s.reg.lcr a data) (takePresented ⟨.store a data, answers⟩ rest s) :=
  step_of_pending rfl (decode_store _ _ hdata)

/-- Settles O19: both accesses are refused for length zero, or the one meaning uses the index only. -/
theorem eightOffsetsOfAnIndexAlias : Obligations.EightOffsetsOfAnIndexAlias := by
  unfold Obligations.EightOffsetsOfAnIndexAlias
  intro s answers rest a b hab
  have hidx : idx a = idx b := by rw [idx_eq_div, idx_eq_div, hab]
  refine ⟨fun n => ?_, fun data => ?_⟩
  · obtain rfl | hn := Nat.eq_zero_or_pos n
    · rfl
    · rw [step_load _ _ _ _ hn, step_load _ _ _ _ hn]
      exact exec_decodeLoad_of_idx _ n _ hidx
  · by_cases hdata : data = []
    · rw [hdata]
      rfl
    · rw [step_store _ _ _ _ hdata, step_store _ _ _ _ hdata]
      exact exec_decodeStore_of_idx _ data _ hidx

/-- Two states that differ at most in the undriven lanes of the last LOAD's buffer and the count of free bytes drawn. -/
def SameButUndriven (s t : State) : Prop :=
  t = { s with response := t.response, draws := t.draws } ∧ SameAnswer s t

theorem returnLoad_sameButUndriven (m n : Nat) (b : Byte) (s : State) :
    SameButUndriven (returnLoad m b s) (returnLoad n b s) :=
  ⟨rfl, .inl ⟨b, freeBytes (m - 1) s, freeBytes (n - 1) s, rfl, rfl⟩⟩

theorem returnLoadFail_sameButUndriven (m n : Nat) (s : State) :
    SameButUndriven (returnLoadFail m s) (returnLoadFail n s) :=
  ⟨rfl, .inr ⟨.outOfWindow, freeBytes m s, freeBytes n s, rfl, rfl⟩⟩

/-- The length decides of a LOAD row the undriven lanes only (20_memory.md R45). -/
theorem loadRow_sameButUndriven {here : Bool} {m n : Nat} {s : State} {row : State → Byte × State} (hm : 1 ≤ m)
    (hn : 1 ≤ n) : OutcomesRelated SameButUndriven (loadRow here m s row) (loadRow here n s row) := by
  rw [loadRow, loadRow, if_neg (show ¬ m = 0 by omega), if_neg (show ¬ n = 0 by omega)]
  split_ifs
  · exact rfl
  · exact rfl
  · exact returnLoad_sameButUndriven m n _ _

theorem execLdOow_sameButUndriven {a m n : Nat} {s : State} (hm : 1 ≤ m) (hn : 1 ≤ n) :
    OutcomesRelated SameButUndriven (execLdOow a m s) (execLdOow a n s) := by
  rw [execLdOow, execLdOow, if_neg (show ¬ m = 0 by omega), if_neg (show ¬ n = 0 by omega)]
  split_ifs
  · exact rfl
  · exact rfl
  · exact returnLoadFail_sameButUndriven m n s

theorem exec_decodeLoad_sameButUndriven (lcr : Byte) (a : Nat) {m n : Nat} (s : State) (hm : 1 ≤ m) (hn : 1 ≤ n) :
    OutcomesRelated SameButUndriven (exec (decodeLoad lcr a m) s) (exec (decodeLoad lcr a n) s) := by
  unfold decodeLoad
  split
  case h_1 | h_2 | h_3 => split_ifs <;> (rw [exec, exec]; exact loadRow_sameButUndriven hm hn)
  case h_9 => exact execLdOow_sameButUndriven hm hn
  all_goals
    rw [exec, exec]
    exact loadRow_sameButUndriven hm hn

/-- A STORE uses of its buffer the first byte only (20_memory.md R44). -/
theorem exec_decodeStore_first_byte (lcr : Byte) (a : Nat) (v : Byte) (x y : List Byte) (s : State) :
    exec (decodeStore lcr a (v :: x)) s = exec (decodeStore lcr a (v :: y)) s := by
  unfold decodeStore
  split
  case h_1 | h_2 | h_3 => split_ifs <;> rfl
  all_goals rfl

/-- Settles O20: the two STOREs have one meaning, the two LOADs are related row form by row form. -/
theorem lengthCarriesOneByteOnly : Obligations.LengthCarriesOneByteOnly := by
  unfold Obligations.LengthCarriesOneByteOnly
  intro s answers rest a
  refine ⟨fun v x y => ?_, fun m n hm hn => ?_⟩
  · rw [step_store _ _ _ _ (List.cons_ne_nil v x), step_store _ _ _ _ (List.cons_ne_nil v y)]
    exact exec_decodeStore_first_byte _ a v x y _
  · rw [step_load _ _ _ _ hm, step_load _ _ _ _ hn]
    exact exec_decodeLoad_sameButUndriven _ a _ hm hn

/-- The bus routes to the block exactly the addresses from UART_BASE on, at their distance from it (20_memory.md R53). -/
theorem windowOffset_eq_some (busAddress off : Nat) :
    windowOffset busAddress = some off ↔ busAddress = Config.uartBase + off := by
  unfold windowOffset
  split_ifs with h
  · rw [Option.some.injEq]
    omega
  · simp only [false_iff]
    omega

theorem memRead_eq_some (busAddress n : Nat) (op : Operation) :
    memRead busAddress n = some op ↔ ∃ off, busAddress = Config.uartBase + off ∧ op = .load off n := by
  simp [memRead, windowOffset_eq_some, eq_comm (b := op)]

theorem memWrite_eq_some (busAddress : Nat) (data : List Byte) (op : Operation) :
    memWrite busAddress data = some op ↔ ∃ off, busAddress = Config.uartBase + off ∧ op = .store off data := by
  simp [memWrite, windowOffset_eq_some, eq_comm (b := op)]

/-- Settles O50: a bus access reaches the block exactly at an offset from UART_BASE, and a fetch is a read. -/
theorem busPresentsWindowOffsets : Obligations.BusPresentsWindowOffsets := by
  unfold Obligations.BusPresentsWindowOffsets
  have hread (off n : Nat) : memRead (Config.uartBase + off) n = some (.load off n) :=
    (memRead_eq_some ..).2 ⟨off, rfl, rfl⟩
  exact ⟨fun off n => ⟨hread off n, hread off n⟩, fun off data => (memWrite_eq_some ..).2 ⟨off, rfl, rfl⟩,
    fun _ _ _ => (memRead_eq_some ..).1, fun _ _ _ => (memWrite_eq_some ..).1⟩

/-- Settles O35: the step's equation, what is taken and latched written out. -/
theorem stepRunsDecodedOperation : Obligations.StepRunsDecodedOperation := by
  unfold Obligations.StepRunsDecodedOperation
  exact fun _ _ _ _ hp hd => step_of_pending hp hd

end Sys2Proof.Machine
end

section
/-! PROOFS. Runs on a live device: every operation inside the contract ends normally when the host accepts (30_encoding.md
R69), and the divisor stays out of the data path (95_test_vectors.md X2). -/

namespace Sys2Proof.Machine

/-- CONSTRUCT and DESTROY apart, keeping the device live asks for the contract only. -/
theorem inContract_of_keepsLive {op : Operation} (h : keepsLive op = true) : op.inContract = true := by
  cases op with
  | construct | destroy => rfl
  | _ => exact h

/-- A STORE row answers a next state in its place on a live device. -/
theorem storeRow_completes {here : Bool} {data : List Byte} {s : State} (row : Byte → State → State) (hl : s.life = .live)
    (hdata : data ≠ []) (hh : here = true) : ∃ t, storeRow here data s row = .next t := by
  obtain ⟨v, more, rfl⟩ := List.exists_cons_of_ne_nil hdata
  exact ⟨_, storeRow_live here v more s row hl hh⟩

/-- On a live device every row but CONSTRUCT answers a next state in its mode (30_encoding.md R69). -/
theorem exec_completes {i : Instr} {s : State} (hl : s.life = .live) (hwf : i.wf = true)
    (hcond : i.rowCond.holds s.reg.lcr = true) (hi : i ≠ .construct) : ∃ t, exec i s = .next t := by
  cases i
  case construct => exact absurd rfl hi
  case tick | hostRx | createLink | destroy => exact ⟨_, if_pos hl⟩
  case ldOow a n =>
    obtain ⟨hn, ha⟩ := Bool.and_eq_true_iff.1 hwf
    exact ⟨_, exec_ldOow hl (of_decide_eq_true hn) ((eight_le_idx_iff a).2 (of_decide_eq_true ha))⟩
  case stOow a data =>
    obtain ⟨hdata, ha⟩ := Bool.and_eq_true_iff.1 hwf
    exact ⟨_, exec_stOow hl (by simpa using hdata) ((eight_le_idx_iff a).2 (of_decide_eq_true ha))⟩
  case ldData | ldDll | ldIer | ldDlm | ldIir | ldEfr | ldLcr | ldMcr | ldLsr | ldMsr | ldScr =>
    rw [exec]
    exact ⟨_, loadRow_live _ _ _ _ hl (of_decide_eq_true hwf) hcond⟩
  all_goals
    rw [exec]
    exact storeRow_completes _ hl (by simpa [Instr.wf] using hwf) hcond

/-- A CREATE_LINK the host accepts is a no-op or takes the path: the device stays live. -/
theorem live_of_createLink {path : String} {s t : State} (h : exec (.createLink path) s = .next t) (hl : s.life = .live)
    (ha : s.answers.link = .ok) : t.life = .live := by
  obtain ⟨hnoop, hdone⟩ := createLinkTakesFirstPathOnly path s hl
  by_cases hp : path = "" ∨ s.linkPath ≠ none
  · rw [hnoop hp] at h
    cases h
    exact hl
  · obtain ⟨hne, hnone⟩ : path ≠ "" ∧ s.linkPath = none := by simpa using hp
    rw [hdone hne hnone ha] at h
    cases h
    exact hl

/-- A row an accepting host answers leaves a live device live, unless it is DESTROY. -/
theorem live_of_exec_accepting {i : Instr} {s t : State} (h : exec i s = .next t) (hl : s.life = .live)
    (ha : s.answers = .accepting) (hi : i ≠ .destroy) : t.life = .live := by
  cases effect_of_exec h with
  | storeDataRefused _ _ _ hrefused =>
    rw [ha] at hrefused
    cases hrefused
  | constructDone | constructFatal => cases hl.symm.trans (unbuilt_of_construct h)
  | createLinkFatal => exact live_of_createLink h hl (by rw [ha]; rfl)
  | destroy => exact absurd rfl hi
  | _ => simpa using hl

/-- A row of an operation that keeps the device live, run in its mode with an accepting host. -/
theorem exec_keepsLive {i : Instr} {s : State} (hl : s.life = .live) (ha : s.answers = .accepting) (hwf : i.wf = true)
    (hcond : i.rowCond.holds s.reg.lcr = true) (hop : keepsLive (encode i) = true) :
    ∃ t, exec i s = .next t ∧ t.life = .live ∧ t.pending = s.pending := by
  have hconstruct : i ≠ .construct := by
    rintro rfl
    cases hop
  have hdestroy : i ≠ .destroy := by
    rintro rfl
    cases hop
  obtain ⟨t, ht⟩ := exec_completes hl hwf hcond hconstruct
  obtain ⟨-, hpending, -⟩ := exec_keeps_interface i s t ht
  exact ⟨t, ht, live_of_exec_accepting ht hl ha hdestroy, hpending⟩

/-- A state in which a sequence waits before `q` is that sequence presented to the state in which `q` waits. -/
theorem eq_presentAll_of_pending {ops : List Operation} {s t : State} (h : t.pending = (presentAll ops s).pending) :
    t = presentAll ops { t with pending := s.pending } :=
  congrArg (fun q => { t with pending := q }) h

/-- One step on a presented sequence whose first operation keeps the device live. -/
theorem step_presentAll_keepsLive {op : Operation} (ops : List Operation) {s : State} (hl : s.life = .live)
    (hop : keepsLive op = true) :
    ∃ u, step (presentAll (op :: ops) s) = .next (presentAll ops u) ∧ u.life = .live ∧ u.pending = s.pending := by
  obtain ⟨i, hd⟩ := exists_decode s.reg.lcr (inContract_of_keepsLive hop)
  obtain ⟨hwf, hcond, rfl⟩ := decode_spec hd
  obtain ⟨u, hu, hul, hup⟩ :=
    exec_keepsLive (s := presentAll ops { s with answers := .accepting }) hl rfl hwf hcond hop
  refine ⟨{ u with pending := s.pending }, ?_, hul, rfl⟩
  rw [step_presentAll_cons ops hd, hu]
  exact congrArg Host.Outcome.next (eq_presentAll_of_pending hup)

theorem safeRun_cons {k : Nat} {s t u : State} (hstep : step s = .next t) (hrun : SafeRun k t u) : SafeRun (k + 1) s u :=
  (safeRun_succ k s u).2 ⟨t, hstep, hrun⟩

/-- Settles O45, by induction on the list: each operation ends with the device live and the others waiting. -/
theorem operationsInContractRunToTheEnd : Obligations.OperationsInContractRunToTheEnd := by
  unfold Obligations.OperationsInContractRunToTheEnd
  intro ops
  induction ops with
  | nil => exact fun s hl _ => ⟨s, rfl, hl, rfl⟩
  | cons op ops ih =>
    intro s hl hops
    obtain ⟨hop, hops⟩ := List.forall_mem_cons.1 hops
    obtain ⟨u, hstep, hul, hup⟩ := step_presentAll_keepsLive ops hl hop
    obtain ⟨t, hrun, htl, htp⟩ := ih u hul hops
    exact ⟨t, safeRun_cons hstep hrun, htl, htp.trans hup⟩

/-- What a STORE that leaves the register file `r` leaves, its answer and the host's included. -/
def afterStore (r : Regs) (s : State) : State := returnStore (withReg r { s with answers := .accepting })

/-- A STORE to offset 24 is ST.LCR in every mode (41_store.md R107). -/
theorem step_presentAll_store_lcr (v : Byte) (ops : List Operation) {s : State} (hl : s.life = .live) :
    step (presentAll (.store 24 [v] :: ops) s) = .next (presentAll ops (afterStore { s.reg with lcr := v } s)) := by
  have hd : decode s.reg.lcr (.store 24 [v]) = .ok (.stLcr 0 [v]) := rfl
  rw [step_presentAll_cons ops hd, exec]
  exact storeRow_live _ _ _ _ _ hl rfl

/-- With DLAB set a STORE to offset 0 is ST.DLL (41_store.md R102). -/
theorem step_presentAll_store_dll (v : Byte) (ops : List Operation) {s : State} (hl : s.life = .live)
    (hdlab : dlab s.reg.lcr = true) :
    step (presentAll (.store 0 [v] :: ops) s) = .next (presentAll ops (afterStore { s.reg with dll := v } s)) := by
  have hd : decode s.reg.lcr (.store 0 [v]) = .ok (.stDll 0 [v]) := by
    rw [decode_store _ _ (List.cons_ne_nil v []), decodeStore_index0 _ 0 [v] rfl, hdlab]
    rfl
  rw [step_presentAll_cons ops hd, exec]
  exact storeRow_live _ _ _ _ _ hl hdlab

/-- With DLAB clear a LOAD of offset 0 is LD.DATA (40_load.md R81). -/
theorem step_presentAll_load_data (ops : List Operation) {s : State} (hl : s.life = .live)
    (hdlab : dlab s.reg.lcr = false) :
    step (presentAll (.load 0 1 :: ops) s) =
      .next (presentAll ops (returnLoad 1 (s.rx.headD 0x00) (chanRecv { s with answers := .accepting }).2)) := by
  have hd : decode s.reg.lcr (.load 0 1) = .ok (.ldData 0 1) := by
    rw [decode_load _ _ le_rfl, decodeLoad_index0 _ 0 1 rfl, hdlab]
    rfl
  rw [step_presentAll_cons ops hd, exec, List.headD_eq_head?_getD]
  exact loadRow_live _ _ _ _ hl le_rfl (congrArg (!·) hdlab)

/-- Settles O25: the run of the four operations one step after the other. -/
theorem divisorNeverReadThroughDataOffset : Obligations.DivisorNeverReadThroughDataOffset := by
  unfold Obligations.DivisorNeverReadThroughDataOffset
  intro s on d off hl hon hoff
  exact ⟨_,
    safeRun_cons (step_presentAll_store_lcr on _ hl) <|
    safeRun_cons (step_presentAll_store_dll d _ hl hon) <|
    safeRun_cons (step_presentAll_store_lcr off _ hl) <|
    safeRun_cons (step_presentAll_load_data [] hl hoff) rfl,
    rfl, rfl, rfl, rfl⟩

end Sys2Proof.Machine
end

section
/-! PROOFS. The decoder and the encoder are inverse to each other, and the decoder is the operation map of
spec/opcode_table.json (30_encoding.md R65 to R68). -/

namespace Sys2Proof.Machine

/-- In its mode a row is what its own operation decodes to: the index of `rowAddress` and the row's condition select the
branch, the lane comes back whole. -/
theorem decode_encode {lcr : Byte} {i : Instr} (hwf : i.wf = true) (hcond : i.rowCond.holds lcr = true) :
    decode lcr (encode i) = .ok i := by
  cases i
  case tick | hostRx | construct | createLink | destroy => rfl
  case ldOow a n =>
    obtain ⟨hn, ha⟩ := Bool.and_eq_true_iff.1 hwf
    rw [encode, decode_load _ _ (of_decide_eq_true hn),
      decodeLoad_outside _ _ _ ((eight_le_idx_iff a).2 (of_decide_eq_true ha))]
  case stOow a data =>
    obtain ⟨hdata, ha⟩ := Bool.and_eq_true_iff.1 hwf
    rw [encode, decode_store _ _ (by simpa using hdata),
      decodeStore_outside _ _ _ ((eight_le_idx_iff a).2 (of_decide_eq_true ha))]
  case ldData | ldDll | ldIer | ldDlm | ldIir | ldEfr | ldLcr | ldMcr | ldLsr | ldMsr | ldScr =>
    rw [encode, decode_load _ _ (of_decide_eq_true hwf)]
    simp_all [decodeLoad, Instr.rowCond, RowCond.holds]
  all_goals
    rw [encode, decode_store _ _ (by simpa [Instr.wf] using hwf)]
    simp_all [decodeStore, Instr.rowCond, RowCond.holds]

/-- Settles O29: the row's own index, lane and condition lead the decoder back to it. -/
theorem decodeOfEncodeIsInstruction : Obligations.DecodeOfEncodeIsInstruction := by
  unfold Obligations.DecodeOfEncodeIsInstruction
  exact fun _ _ hwf hcond => decode_encode hwf hcond

/-- Settles O30: what each branch of the decoder answers, read off at the index that selects it. -/
theorem encodeOfDecodeIsOperation : Obligations.EncodeOfDecodeIsOperation := by
  unfold Obligations.EncodeOfDecodeIsOperation
  exact fun _ _ _ hd => decode_spec hd

/-- Outside the contract stands only a bus access of length zero, and the decoder says so. -/
theorem decode_outside_contract {op : Operation} (lcr : Byte) (h : op.inContract = false) :
    decode lcr op = .error .zeroLength := by
  cases op with
  | load a n =>
    have hn : ¬ 1 ≤ n := of_decide_eq_false h
    exact if_pos (by omega)
  | store a data => exact if_pos (by simpa [Operation.inContract] using h)
  | tick | hostRx | construct | createLink | destroy => cases h

/-- Settles O31: inside the contract a row is answered, outside it the error that becomes the refusal. -/
theorem decodeTotalInsideContract : Obligations.DecodeTotalInsideContract := by
  unfold Obligations.DecodeTotalInsideContract
  refine ⟨fun lcr op => ⟨?_, exists_decode lcr⟩, fun s p rest hp hout => ?_⟩
  · rintro ⟨i, hd⟩
    by_contra hout
    rw [decode_outside_contract lcr (Bool.eq_false_of_not_eq_true hout)] at hd
    cases hd
  · simp only [step, hp, decode_outside_contract _ hout, refusalOf]

/-- The index at which a bus row of the operation map stands; 8 stands for every index out of the window. -/
def rowIndex (r : BusRow) : Nat := (r.bits.map fun bits => bits.1.toNat / 8).getD 8

/-- The match and mask of each row of the map are those of its index (30_encoding.md R68). -/
theorem bits_of_rows : ∀ r ∈ loadRows ++ storeRows,
    r.bits = none ∨
      rowIndex r < 8 ∧ r.bits = some (BitVec.ofNat 64 (8 * rowIndex r), 0xFFFFFFFFFFFFFFF8) := by
  decide

/-- A row of the map applies at its index, under its condition. -/
theorem applies_iff {r : BusRow} (hr : r ∈ loadRows ++ storeRows) (a : Nat) (lcr : Byte) :
    r.applies a lcr = true ↔ min (idx a) 8 = rowIndex r ∧ r.cond.holds lcr = true := by
  rw [BusRow.applies, Bool.and_eq_true_iff]
  refine and_congr_left' ?_
  obtain hbits | ⟨hk, hbits⟩ := bits_of_rows r hr
  · have hindex : rowIndex r = 8 := by rw [rowIndex, hbits]; rfl
    rw [hbits, hindex]
    exact decide_eq_true_iff.trans min_eq_right_iff.symm
  · rw [hbits]
    simp only
    rw [mask_match_eq_idx a _ hk, decide_eq_true_iff]
    omega

/-- At each index the rows that apply are those whose mnemonic the decoder answers: DLAB decides at the indices 0 and 1, EXT
at the index 2, nothing elsewhere. -/
theorem rows_agree (lcr : Byte) (a n : Nat) (data : List Byte) :
    (∀ r ∈ loadRows, min (idx a) 8 = rowIndex r ∧ r.cond.holds lcr = true ↔
      (decodeLoad lcr a n).mnemonic = r.mnemonic) ∧
    (∀ r ∈ storeRows, min (idx a) 8 = rowIndex r ∧ r.cond.holds lcr = true ↔
      (decodeStore lcr a data).mnemonic = r.mnemonic) := by
  obtain h | h | h | h | h | h | h | h | h := idx_cases a
  case inl | inr.inl =>
    cases hd : dlab lcr <;>
      simp [loadRows, storeRows, rowIndex, h, hd, decodeLoad, decodeStore, Instr.mnemonic, RowCond.holds]
  case inr.inr.inl =>
    cases he : ext lcr <;>
      simp [loadRows, storeRows, rowIndex, h, he, decodeLoad, decodeStore, Instr.mnemonic, RowCond.holds]
  case inr.inr.inr.inr.inr.inr.inr.inr =>
    rw [decodeLoad_outside _ _ _ h, decodeStore_outside _ _ _ h, min_eq_right h]
    simp [loadRows, storeRows, rowIndex, Instr.mnemonic, RowCond.holds]
  all_goals
    simp [loadRows, storeRows, rowIndex, h, decodeLoad, decodeStore, Instr.mnemonic, RowCond.holds]

/-- Settles O32: a row applies at its index under its condition, and there the decoder answers its mnemonic. -/
theorem decodeAgreesWithOperationMap : Obligations.DecodeAgreesWithOperationMap := by
  unfold Obligations.DecodeAgreesWithOperationMap
  intro lcr a n data
  obtain ⟨hload, hstore⟩ := rows_agree lcr a n data
  exact ⟨fun r hr => (applies_iff (List.mem_append_left _ hr) a lcr).trans (hload r hr),
    fun r hr => (applies_iff (List.mem_append_right _ hr) a lcr).trans (hstore r hr)⟩

/-- Settles O33: each triple is closed, and the decode algorithm computes its row. -/
theorem specAddressesDecode : Obligations.SpecAddressesDecode := by
  unfold Obligations.SpecAddressesDecode
  decide

end Sys2Proof.Machine
end

section
/-! PROOFS. What a row answers to the bus master in its mode (30_encoding.md R69), and the pseudo-operations of R72. -/

namespace Sys2Proof.Machine

/-- A row that a LOAD encodes is a LOAD row of that length, or LD.OOW. -/
theorem exec_of_encode_load {i : Instr} {a n : Nat} (s : State) (henc : encode i = .load a n) :
    (∃ here row, exec i s = loadRow here n s row) ∨ i = .ldOow a n := by
  cases i <;> cases henc
  case ldOow => exact .inr rfl
  all_goals
    rw [exec]
    exact .inl ⟨_, _, rfl⟩

/-- An in-window LOAD row that ends has filled a buffer of its length (40_load.md R80). -/
theorem response_of_load {i : Instr} {s t : State} {a n : Nat} (h : exec i s = .next t) (henc : encode i = .load a n)
    (ha : a < 64) : ∃ out, t.response = .loadOk out ∧ out.length = n := by
  obtain ⟨here, row, hrow⟩ | rfl := exec_of_encode_load s henc
  · rw [hrow] at h
    obtain ⟨-, hn, -, rfl⟩ := (loadRow_eq_next ..).1 h
    exact ⟨_, rfl, outBuffer_length _ _ _ (by omega)⟩
  · obtain ⟨-, -, hidx, -⟩ := (execLdOow_eq_next ..).1 h
    exact absurd ha (not_lt.2 ((eight_le_idx_iff a).1 hidx))

/-- A row that returns a register is a LOAD row. -/
theorem encode_of_loadedRegister {r : Regs} {i : Instr} {b : Byte} (h : loadedRegister r i = some b) :
    ∃ a n, encode i = .load a n := by
  cases i <;> cases h <;> exact ⟨_, _, rfl⟩

/-- An in-window STORE row that ends, the channel taking the byte, has succeeded (41_store.md R100). -/
theorem response_of_store {i : Instr} {s t : State} {a : Nat} {data : List Byte} (h : exec i s = .next t)
    (henc : encode i = .store a data) (ha : a < 64) (hacc : s.answers.txAccept = true) : t.response = .storeOk := by
  cases effect_of_exec h with
  | storeRegister | storeDataSent => rfl
  | storeDataRefused _ _ _ hrefused => exact absurd hacc (by simp [hrefused])
  | storeOutside b _ hidx =>
    cases henc
    exact absurd ha (not_lt.2 ((eight_le_idx_iff a).1 hidx))
  | loadRegister n hb =>
    obtain ⟨_, _, hload⟩ := encode_of_loadedRegister hb
    cases hload.symm.trans henc
  | _ => cases henc

/-- CONSTRUCT on an unbuilt device ends whatever the host answers, in the reset or in a fatal error (42_tick_and_host.md
R126). -/
theorem exec_construct_completes {s : State} (hl : s.life = .unbuilt) : ∃ t, exec .construct s = .next t := by
  rw [exec, execConstruct, if_neg (not_not.2 hl)]
  cases s.answers.construct <;> exact ⟨_, rfl⟩

/-- Settles O44: every row completes, and what it answers follows from the row that ended. -/
theorem everyRowCompletesInItsMode : Obligations.EveryRowCompletesInItsMode := by
  unfold Obligations.EveryRowCompletesInItsMode
  intro i s hwf hcond hlife
  obtain ⟨t, ht⟩ : ∃ t, exec i s = .next t := by
    split_ifs at hlife with hi
    · subst hi
      exact exec_construct_completes hlife
    · exact exec_completes hlife hwf hcond hi
  exact ⟨t, ht, fun _ _ henc ha => response_of_load ht henc ha,
    fun _ _ henc ha hacc => response_of_store ht henc ha hacc⟩

/-- A STORE row that writes a register, run in its mode (41_store.md R102 to R111). -/
theorem exec_storedRegisters {i : Instr} {s : State} {r : Regs} {a : Nat} {v : Byte} {more : List Byte}
    (hl : s.life = .live) (henc : encode i = .store a (v :: more)) (hcond : i.rowCond.holds s.reg.lcr = true)
    (hr : storedRegisters v s.reg i = some r) : exec i s = .next (returnStore (withReg r s)) := by
  cases i <;> cases hr <;> cases henc
  all_goals
    rw [exec]
    exact storeRow_live _ _ _ _ _ hl hcond

/-- A step on a presented one-byte STORE that resolves to a row writing a register. -/
theorem step_presentAll_store_register {a : Nat} {v : Byte} {i : Instr} {r : Regs} (ops : List Operation) {s : State}
    (hl : s.life = .live) (hd : decode s.reg.lcr (.store a [v]) = .ok i) (hr : storedRegisters v s.reg i = some r) :
    step (presentAll (.store a [v] :: ops) s) = .next (presentAll ops (afterStore r s)) := by
  obtain ⟨-, hcond, henc⟩ := decode_spec hd
  rw [step_presentAll_cons ops hd]
  exact exec_storedRegisters (s := presentAll ops { s with answers := .accepting }) hl henc hcond hr

/-- With DLAB set a one-byte STORE to offset 8 is ST.DLM. -/
theorem decode_store_dlm {lcr : Byte} (v : Byte) (hd : dlab lcr = true) :
    decode lcr (.store 8 [v]) = .ok (.stDlm 0 [v]) := by
  rw [decode_store _ _ (List.cons_ne_nil v []), decodeStore_index1 _ 8 [v] rfl, hd]
  rfl

/-- Line Control `0x80 | c` has DLAB set, `0xBF` included. -/
theorem dlab_setDiv (c : Byte) : dlab (0x80 ||| c) = true := by
  simp [dlab]

/-- The bytes of a divisor: the remainder by 256 and the quotient. -/
theorem divisor_bytes (d : BitVec 16) :
    d.extractLsb' 0 8 = BitVec.ofNat 8 d.toNat ∧ d.extractLsb' 8 8 = BitVec.ofNat 8 (d.toNat / 256) := by
  simp [BitVec.extractLsb', Nat.shiftRight_eq_div_pow]

/-- SETDIV in one run: four STOREs, the middle two under DLAB. -/
theorem safeRun_setDiv (d : BitVec 16) (c : Byte) {s : State} (hl : s.life = .live) :
    ∃ t, SafeRun 4 (presentAll (setDiv d c) s) t ∧ t.rx = s.rx ∧ t.tx = s.tx ∧ t.life = .live ∧
      t.reg = { s.reg with dll := d.extractLsb' 0 8, dlm := d.extractLsb' 8 8, lcr := c } :=
  ⟨_,
    safeRun_cons (step_presentAll_store_lcr _ _ hl) <|
    safeRun_cons (step_presentAll_store_dll _ _ hl (dlab_setDiv c)) <|
    safeRun_cons (step_presentAll_store_register _ hl (decode_store_dlm _ (dlab_setDiv c)) rfl) <|
    safeRun_cons (step_presentAll_store_lcr c [] hl) rfl,
    rfl, rfl, hl, rfl⟩

/-- EFRWR in one run: three STOREs, the middle one in the extended bank. -/
theorem safeRun_efrWr (v c : Byte) {s : State} (hl : s.life = .live) :
    ∃ t, SafeRun 3 (presentAll (efrWr v c) s) t ∧ t.rx = s.rx ∧ t.tx = s.tx ∧ t.life = .live ∧
      t.reg = { s.reg with efr := v, lcr := c } :=
  have hd : decode 0xBF (.store 16 [v]) = .ok (.stEfr 0 [v]) := rfl
  ⟨_,
    safeRun_cons (step_presentAll_store_lcr 0xBF _ hl) <|
    safeRun_cons (step_presentAll_store_register _ hl hd rfl) <|
    safeRun_cons (step_presentAll_store_lcr c [] hl) rfl,
    rfl, rfl, hl, rfl⟩

/-- Settles O27: the two expansions run STORE by STORE; the bytes of the divisor are its low and high byte. -/
theorem pseudoStoresProgramDivisorAndFeature : Obligations.PseudoStoresProgramDivisorAndFeature := by
  unfold Obligations.PseudoStoresProgramDivisorAndFeature
  intro s d v c hl _
  obtain ⟨hlow, hhigh⟩ := divisor_bytes d
  rw [← hlow, ← hhigh]
  exact ⟨safeRun_setDiv d c hl, safeRun_efrWr v c hl⟩

/-- What an LD.LSR of one byte leaves, the host's answers latched (40_load.md R89). -/
def afterLineStatus (s : State) : State :=
  returnLoad 1 (lineStatus s.reg.lsr (chanReady s))
    (withReg { s.reg with lsr := lineStatus s.reg.lsr (chanReady s) } { s with answers := .accepting })

/-- A LOAD of offset 40 is LD.LSR in every mode. -/
theorem step_presentAll_load_lsr (ops : List Operation) {s : State} (hl : s.life = .live) :
    step (presentAll (.load 40 1 :: ops) s) = .next (presentAll ops (afterLineStatus s)) := by
  have hd : decode s.reg.lcr (.load 40 1) = .ok (.ldLsr 0 1) := rfl
  rw [step_presentAll_cons ops hd, exec]
  exact loadRow_live _ _ _ _ hl le_rfl rfl

/-- Bit 0 of the Line Status report is the channel's readiness. -/
theorem reportsReady_afterLineStatus (s : State) : reportsReady (afterLineStatus s).response = chanReady s :=
  (lineStatus_bit s.reg.lsr (chanReady s)).1

/-- GETC branches on the channel's readiness. -/
theorem getC_live {s : State} (hl : s.life = .live) :
    getC s = if chanReady s then step (present (.load 0 1) (afterLineStatus s)) else .next (afterLineStatus s) := by
  have hlsr : step (present (.load 40 1) s) = .next (afterLineStatus s) := step_presentAll_load_lsr [] hl
  rw [getC, hlsr]
  simp only [reportsReady_afterLineStatus]

/-- Settles O28: with a byte waiting GETC goes on to LD.DATA, with none it stops at the report. -/
theorem getCharReceivesOnlyWhenReady : Obligations.GetCharReceivesOnlyWhenReady := by
  unfold Obligations.GetCharReceivesOnlyWhenReady
  intro s hl hd
  refine ⟨fun b rest hrx => ?_, fun hrx => ?_⟩
  · have hready : chanReady s = true := by simp [chanReady, hrx]
    rw [getC_live hl, if_pos hready]
    refine ⟨_, step_presentAll_load_data [] (s := afterLineStatus s) hl hd, ?_, ?_⟩
    · simp [afterLineStatus, hrx, presentAll]
    · simp [afterLineStatus, hrx]
  · have hready : chanReady s = false := by simp [chanReady, hrx]
    rw [getC_live hl, if_neg (by simp [hready])]
    exact ⟨_, _, rfl, rfl, (lineStatus_bit _ _).1.trans hready, hrx⟩

end Sys2Proof.Machine
end

section
/-! PROOFS. What each LOAD row returns and leaves unchanged (40_load.md R80 to R91). -/

namespace Sys2Proof.Machine

/-- A LOAD row in its place on a live device returns its byte and leaves its state (40_load.md R80). -/
theorem loadRow_returnsByte {here : Bool} {n : Nat} {s : State} (row : State → Byte × State) (hl : s.life = .live)
    (hn : 1 ≤ n) (hh : here = true) : ReturnsByte n (row s).1 (row s).2 (loadRow here n s row) := by
  rw [loadRow_live _ _ _ _ hl hn hh]
  exact returnsByte_of_returnLoad _ _ _ hn

/-- The receive primitive takes the oldest byte (42_tick_and_host.md R122). -/
theorem chanRecv_of_cons {s : State} {b : Byte} {rest : List Byte} (h : s.rx = b :: rest) :
    chanRecv s = (some b, { s with rx := rest }) := by
  rw [chanRecv, h]
  rfl

/-- The receive primitive changes nothing when no byte waits (42_tick_and_host.md R122). -/
theorem chanRecv_of_nil {s : State} (h : s.rx = []) : chanRecv s = (none, s) := by
  cases s
  cases h
  rfl

/-- LD.DATA in its mode, through the receive primitive (40_load.md R81). -/
theorem exec_ldData_returnsByte (lane : Lane) {n : Nat} {s : State} (hl : s.life = .live) (hn : 1 ≤ n)
    (hd : dlab s.reg.lcr = false) :
    ReturnsByte n ((chanRecv s).1.getD 0x00) (chanRecv s).2 (exec (.ldData lane n) s) := by
  rw [exec, execLdData]
  exact loadRow_returnsByte _ hl hn (congrArg (!·) hd)

/-- Settles O9: the receive primitive on a queue with a byte and on an empty one. -/
theorem loadDataReceivesOldestByte : Obligations.LoadDataReceivesOldestByte := by
  unfold Obligations.LoadDataReceivesOldestByte
  intro lane n s hl hn hd
  have hload := exec_ldData_returnsByte lane hl hn hd
  constructor
  · intro b rest hrx
    rw [chanRecv_of_cons hrx] at hload
    exact hload
  · intro hrx
    rw [chanRecv_of_nil hrx] at hload
    exact hload

/-- In its mode a LOAD row without a side effect returns its register and changes nothing. -/
theorem exec_loadedRegister {i : Instr} {s : State} {a n : Nat} {b : Byte} (hl : s.life = .live)
    (henc : encode i = .load a n) (hn : 1 ≤ n) (hcond : i.rowCond.holds s.reg.lcr = true)
    (hb : loadedRegister s.reg i = some b) : ReturnsByte n b s (exec i s) := by
  cases i <;> cases hb <;> cases henc
  all_goals
    rw [exec]
    exact loadRow_returnsByte _ hl hn hcond

/-- Settles O10: each of the seven rows is one without a side effect, in its mode. -/
theorem registerLoadsReturnRegister : Obligations.RegisterLoadsReturnRegister := by
  unfold Obligations.RegisterLoadsReturnRegister
  intro lane n s hl hn
  have hext (h : s.reg.lcr = 0xBF) : RowCond.ext.holds s.reg.lcr = true := by rw [h]; rfl
  exact ⟨fun hset => exec_loadedRegister hl rfl hn hset rfl,
    fun hclear => exec_loadedRegister hl rfl hn (congrArg (!·) hclear) rfl,
    fun hset => exec_loadedRegister hl rfl hn hset rfl,
    fun h => exec_loadedRegister hl rfl hn (hext h) rfl,
    exec_loadedRegister hl rfl hn rfl rfl,
    exec_loadedRegister hl rfl hn rfl rfl,
    exec_loadedRegister hl rfl hn rfl rfl⟩

/-- Settles O11: the row returns the stored byte, which the invariant keeps at its reset value. -/
theorem loadModemStatusReturnsResetValue : Obligations.LoadModemStatusReturnsResetValue := by
  unfold Obligations.LoadModemStatusReturnsResetValue
  intro lane n s hl hn
  have hload : ReturnsByte n s.reg.msr s (exec (.ldMsr lane n) s) := exec_loadedRegister hl rfl hn rfl rfl
  refine ⟨hload, fun ⟨hfixed, _⟩ => ?_⟩
  obtain ⟨hmsr, -⟩ := hfixed hl
  rwa [hmsr] at hload

/-- Settles O12: the byte after the clear is `iir | 0x01`, the byte returned is the one before it. -/
theorem loadInterruptIdReturnsThenClears : Obligations.LoadInterruptIdReturnsThenClears := by
  unfold Obligations.LoadInterruptIdReturnsThenClears
  intro lane n s hl hn hlcr
  have hnotExt : (!ext s.reg.lcr) = true := by simpa [ext] using hlcr
  refine ⟨s.reg.iir ||| 0x01, ?_, fun k hk => ?_, ?_⟩
  · rw [clear_bit, decide_eq_true rfl, Bool.or_true]
  · rw [clear_bit, decide_eq_false (Nat.one_le_iff_ne_zero.1 hk), Bool.or_false]
  · rw [exec, execLdIir]
    exact loadRow_returnsByte _ hl hn hnotExt

/-- The channel is ready exactly when a byte waits (42_tick_and_host.md R121). -/
theorem chanReady_eq_decide (s : State) : chanReady s = decide (s.rx ≠ []) := by
  cases h : s.rx <;> simp [chanReady, h]

/-- Settles O13: the byte is the Line Status report on the channel's readiness, bit by bit. -/
theorem loadLineStatusReportsReadiness : Obligations.LoadLineStatusReportsReadiness := by
  unfold Obligations.LoadLineStatusReportsReadiness
  intro lane n s hl hn
  obtain ⟨hready, htx5, htx6, hstored⟩ := lineStatus_bit s.reg.lsr (chanReady s)
  refine ⟨lineStatus s.reg.lsr (chanReady s), hready.trans (chanReady_eq_decide s), htx5, htx6, hstored, ?_⟩
  rw [exec, execLdLsr]
  exact loadRow_returnsByte _ hl hn rfl

end Sys2Proof.Machine
end

section
/-! PROOFS. What each STORE row changes and leaves unchanged (41_store.md R100 to R111). -/

namespace Sys2Proof.Machine

/-- With the enable set, a sent byte clears bit 0 of IIR (41_store.md R101). -/
theorem afterSend_enabled (v : Byte) {s : State} (he : trigEnabled s = true) :
    afterSend v s =
      { s with reg := { s.reg with iir := s.reg.iir &&& 0xFE }, tx := s.tx ++ [v], response := .storeOk } := by
  rw [afterSend, he]
  rfl

/-- With the enable clear, a sent byte leaves IIR (41_store.md R101). -/
theorem afterSend_disabled (v : Byte) {s : State} (he : trigEnabled s = false) :
    afterSend v s = { s with tx := s.tx ++ [v], response := .storeOk } := by
  rw [afterSend, he]
  rfl

/-- Settles O15: the byte is sent; with the enable set the IIR left is `iir & 0xFE`. -/
theorem storeDataTransmitsAndRaises : Obligations.StoreDataTransmitsAndRaises := by
  unfold Obligations.StoreDataTransmitsAndRaises
  intro lane v more s hl hd ha
  rw [exec_stData_sent lane v more hl hd ha]
  refine ⟨fun he => ⟨s.reg.iir &&& 0xFE, ?_, fun k hk => ?_, ?_⟩, fun he => ?_⟩
  · rw [raise_bit, decide_eq_false (not_not.2 rfl), Bool.and_false]
  · rw [raise_bit, decide_eq_true (Nat.one_le_iff_ne_zero.1 hk), Bool.and_true]
  · rw [afterSend_enabled v he]
  · rw [afterSend_disabled v he]

/-- An ST.DATA whose byte the channel refuses (42_tick_and_host.md R123). -/
theorem exec_stData_refused (lane : Lane) (v : Byte) (more : List Byte) {s : State} (hl : s.life = .live)
    (hd : dlab s.reg.lcr = false) (ha : s.answers.txAccept = false) :
    exec (.stData lane (v :: more)) s = .next (raiseFatal .txShortWrite s) := by
  rw [exec, execStData, storeRow_live _ _ _ _ _ hl (by rw [hd]; rfl), chanSend_refused v ha]

/-- Settles O16: a refused byte ends in the fatal error, which touches the life and the response only. -/
theorem shortWriteKillsDevice : Obligations.ShortWriteKillsDevice := by
  unfold Obligations.ShortWriteKillsDevice
  exact fun lane v more s hl hd ha => exec_stData_refused lane v more hl hd ha

/-- Settles O17: each of the eight rows is one that writes a register, in its mode. -/
theorem registerStoresWriteStraightThrough : Obligations.RegisterStoresWriteStraightThrough := by
  unfold Obligations.RegisterStoresWriteStraightThrough
  intro lane v more s hl
  have hext (h : s.reg.lcr = 0xBF) : RowCond.ext.holds s.reg.lcr = true := by rw [h]; rfl
  have hnotExt (h : s.reg.lcr ≠ 0xBF) : RowCond.notExt.holds s.reg.lcr = true := by
    simpa [RowCond.holds, ext] using h
  exact ⟨fun hset => exec_storedRegisters hl rfl hset rfl,
    fun hclear => exec_storedRegisters hl rfl (congrArg (!·) hclear) rfl,
    fun hset => exec_storedRegisters hl rfl hset rfl,
    fun h => exec_storedRegisters hl rfl (hnotExt h) rfl,
    fun h => exec_storedRegisters hl rfl (hext h) rfl,
    exec_storedRegisters hl rfl rfl rfl,
    exec_storedRegisters hl rfl rfl rfl,
    exec_storedRegisters hl rfl rfl rfl⟩

/-- Settles O18: the two status rows are STORE rows that leave the register file as it is. -/
theorem statusStoresDiscarded : Obligations.StatusStoresDiscarded := by
  unfold Obligations.StatusStoresDiscarded
  intro lane data s hl hdata
  obtain ⟨v, more, rfl⟩ := List.exists_cons_of_ne_nil hdata
  exact ⟨exec_storedRegisters hl rfl rfl rfl, exec_storedRegisters hl rfl rfl rfl⟩

end Sys2Proof.Machine
end

section
/-! PROOFS. TICK and HOST.RX on their own, and the runs in which they meet the bus master (42_tick_and_host.md R120 to
R129, 60_exceptions.md R163). -/

namespace Sys2Proof.Machine

/-- HOST.RX on a live device puts the byte at the end of rx (42_tick_and_host.md R124). -/
theorem exec_hostRx_live (v : Byte) {s : State} (hl : s.life = .live) :
    exec (.hostRx v) s = .next (returnDone { s with rx := s.rx ++ [v] }) :=
  (execHostRx_eq_next v s _).2 ⟨hl, rfl⟩

/-- A step on a presented HOST.RX. -/
theorem step_presentAll_hostRx (v : Byte) (ops : List Operation) {s : State} (hl : s.life = .live) :
    step (presentAll (.hostRx v :: ops) s) =
      .next (presentAll ops (returnDone { s with rx := s.rx ++ [v], answers := .accepting })) := by
  have hd : decode s.reg.lcr (.hostRx v) = .ok (.hostRx v) := rfl
  rw [step_presentAll_cons ops hd]
  exact exec_hostRx_live v hl

/-- What the host sends stands at the end of rx, in order, and disturbs neither the registers nor what waits. -/
theorem safeRun_hostRx (sent : List Byte) (ops : List Operation) {s : State} (hl : s.life = .live) :
    ∃ u, SafeRun sent.length (presentAll (sent.map .hostRx ++ ops) s) (presentAll ops u) ∧
      u.rx = s.rx ++ sent ∧ u.life = .live ∧ u.reg = s.reg ∧ u.pending = s.pending := by
  induction sent generalizing s with
  | nil => exact ⟨s, rfl, (List.append_nil s.rx).symm, hl, rfl, rfl⟩
  | cons v sent ih =>
    obtain ⟨u, hrun, hrx, hlife, hreg, hpending⟩ :=
      ih (s := returnDone { s with rx := s.rx ++ [v], answers := .accepting }) hl
    refine ⟨u, safeRun_cons (step_presentAll_hostRx v _ hl) hrun, ?_, hlife, hreg, hpending⟩
    simp [hrx]

/-- A TICK with the enable set and a byte waiting raises the flag (42_tick_and_host.md R120). -/
theorem exec_tick_raises {s : State} (hl : s.life = .live) (he : trigEnabled s = true) (hready : chanReady s = true) :
    exec .tick s = .next (returnDone (raiseIrq s)) :=
  (execTick_eq_next s _).2 ⟨hl, by rw [he, hready]; rfl⟩

/-- A TICK with the enable clear or the channel empty changes nothing but the response (42_tick_and_host.md R120). -/
theorem exec_tick_quiet {s : State} (hl : s.life = .live) (h : trigEnabled s = false ∨ chanReady s = false) :
    exec .tick s = .next (returnDone s) :=
  (execTick_eq_next s _).2 ⟨hl, by rw [(Bool.and_eq_false_iff ..).2 h]; rfl⟩

/-- A step on a presented TICK that raises the flag. -/
theorem step_presentAll_tick_raises (ops : List Operation) {s : State} (hl : s.life = .live)
    (he : trigEnabled s = true) (hready : chanReady s = true) :
    step (presentAll (.tick :: ops) s) =
      .next (presentAll ops (returnDone (raiseIrq { s with answers := .accepting }))) := by
  have hd : decode s.reg.lcr .tick = .ok .tick := rfl
  rw [step_presentAll_cons ops hd]
  exact exec_tick_raises hl he hready

/-- A step on a presented TICK that finds the channel empty. -/
theorem step_presentAll_tick_empty (ops : List Operation) {s : State} (hl : s.life = .live)
    (hready : chanReady s = false) :
    step (presentAll (.tick :: ops) s) = .next (presentAll ops (returnDone { s with answers := .accepting })) := by
  have hd : decode s.reg.lcr .tick = .ok .tick := rfl
  rw [step_presentAll_cons ops hd]
  exact exec_tick_quiet hl (.inr hready)

/-- With DLAB clear a LOAD of offset 16 is LD.IIR, the acknowledge (40_load.md R85). -/
theorem step_presentAll_load_iir (ops : List Operation) {s : State} (hl : s.life = .live)
    (hdlab : dlab s.reg.lcr = false) :
    step (presentAll (.load 16 1 :: ops) s) =
      .next (presentAll ops (returnLoad 1 s.reg.iir (clearIrq { s with answers := .accepting }))) := by
  have hext : ext s.reg.lcr = false := by
    refine Bool.eq_false_iff.2 fun h => ?_
    cases (dlab_of_ext _ h).symm.trans hdlab
  have hd : decode s.reg.lcr (.load 16 1) = .ok (.ldIir 0 1) := by
    rw [decode_load _ _ le_rfl, decodeLoad_index2 _ 16 1 rfl, hext]
    rfl
  rw [step_presentAll_cons ops hd, exec]
  exact loadRow_live _ _ _ _ hl le_rfl (congrArg (!·) hext)

/-- Raising the flag makes it pending (60_exceptions.md R155, R161). -/
theorem irqOut_of_raised {s : State} {v : Byte} (h : s.reg.iir = v &&& 0xFE) : irqOut s = true := by
  simp [irqOut, pendingFlag, Config.ipBit, h]

/-- Clearing the flag makes it not pending (60_exceptions.md R157, R161). -/
theorem irqOut_of_cleared {s : State} {v : Byte} (h : s.reg.iir = v ||| 0x01) : irqOut s = false := by
  simp [irqOut, pendingFlag, Config.ipBit, h]

/-- Settles O24: the report leaves rx, the host's bytes go behind the one it reported, LD.DATA takes the head. -/
theorem readyReportGuaranteesNextByte : Obligations.ReadyReportGuaranteesNextByte := by
  unfold Obligations.ReadyReportGuaranteesNextByte
  intro s b rest sent hl hd hrx
  obtain ⟨u, hsent, hurx, hul, hureg, hupending⟩ := safeRun_hostRx sent [.load 0 1] (s := afterLineStatus s) hl
  have hqueue : u.rx = b :: (rest ++ sent) := by rw [hurx, ← List.cons_append, ← hrx]; rfl
  have hdlab : dlab u.reg.lcr = false := by rw [hureg]; exact hd
  have hload : SafeRun 1 (presentAll [.load 0 1] u) _ := safeRun_cons (step_presentAll_load_data [] hul hdlab) rfl
  refine ⟨_, safeRun_cons (step_presentAll_load_lsr _ hl) ((safeRun_add sent.length 1 _ _).2 ⟨_, hsent, hload⟩),
    ?_, ?_, hupending⟩
  · simp [hqueue]
  · simp [hqueue]

/-- Settles O48: the three runs one step after the other; the last mutator of the flag in each decides it. -/
theorem tickReRaisesWhileDataWaits : Obligations.TickReRaisesWhileDataWaits := by
  unfold Obligations.TickReRaisesWhileDataWaits
  intro s b hl hd he hrx
  have hready : chanReady s = true := by simp [chanReady, hrx]
  have hdrained : (chanRecv s).2.rx = [] := by rw [chanRecv_of_cons hrx]
  have hidle : chanReady (chanRecv s).2 = false := by simp [chanReady, hrx]
  refine ⟨⟨_, safeRun_cons (step_presentAll_load_iir _ hl hd) <|
      safeRun_cons (step_presentAll_tick_raises [] hl he hready) rfl, ?_⟩,
    ⟨_, safeRun_cons (step_presentAll_load_iir _ hl hd) <|
      safeRun_cons (step_presentAll_load_data _ hl hd) <|
      safeRun_cons (step_presentAll_tick_empty [] hl hidle) rfl, ?_⟩,
    ⟨_, safeRun_cons (step_presentAll_tick_raises _ hl he hready) <|
      safeRun_cons (step_presentAll_load_data [] hl hd) rfl, ?_, hdrained⟩⟩
  · exact irqOut_of_raised rfl
  · exact irqOut_of_cleared rfl
  · exact irqOut_of_raised rfl

/-- Settles O7: the equation of HOST.RX on a live device. -/
theorem hostRxAppendsByte : Obligations.HostRxAppendsByte := by
  unfold Obligations.HostRxAppendsByte
  exact fun v _ hl => exec_hostRx_live v hl

/-- Settles O8: with the enable set and a byte waiting the IIR left is `iir & 0xFE`. -/
theorem tickRaisesFlagWhenDataWaits : Obligations.TickRaisesFlagWhenDataWaits := by
  unfold Obligations.TickRaisesFlagWhenDataWaits
  intro s hl
  constructor
  · intro he hrx
    refine ⟨s.reg.iir &&& 0xFE, ?_, fun k hk => ?_, ?_⟩
    · rw [raise_bit, decide_eq_false (not_not.2 rfl), Bool.and_false]
    · rw [raise_bit, decide_eq_true (Nat.one_le_iff_ne_zero.1 hk), Bool.and_true]
    · exact exec_tick_raises hl he ((chanReady_eq_decide s).trans (decide_eq_true hrx))
  · rintro (he | hrx)
    · exact exec_tick_quiet hl (.inl he)
    · exact exec_tick_quiet hl (.inr (by simp [chanReady, hrx]))

end Sys2Proof.Machine
end

section
/-! PROOFS. The endings of CONSTRUCT, CREATE_LINK and DESTROY by the host's answer (42_tick_and_host.md R126 to R128). -/

namespace Sys2Proof.Machine

/-- A CONSTRUCT the host can carry out resets the device (42_tick_and_host.md R126). -/
theorem exec_construct_ok {s : State} (hl : s.life = .unbuilt) (ha : s.answers.construct = .ok) :
    exec .construct s = .next (returnDone (constructed (logHost [.channelOpened, .channelConfiguredRaw] s))) := by
  rw [exec, execConstruct, if_neg (not_not.2 hl), ha]

theorem exec_construct_allocFailed {s : State} (hl : s.life = .unbuilt) (ha : s.answers.construct = .allocFailed) :
    exec .construct s = .next (raiseFatal .channelAllocFailed s) := by
  rw [exec, execConstruct, if_neg (not_not.2 hl), ha]

theorem exec_construct_configFailed {s : State} (hl : s.life = .unbuilt) (ha : s.answers.construct = .configFailed) :
    exec .construct s = .next (raiseFatal .channelConfigFailed (logHost [.channelOpened] s)) := by
  rw [exec, execConstruct, if_neg (not_not.2 hl), ha]

/-- Settles O2: one ending per answer of the host, and the refusal. -/
theorem constructLeavesResetParameters : Obligations.ConstructLeavesResetParameters := by
  unfold Obligations.ConstructLeavesResetParameters
  exact fun s => ⟨exec_construct_ok,
    fun hl ha => ⟨_, exec_construct_allocFailed hl ha, rfl, rfl⟩,
    fun hl ha => ⟨_, exec_construct_configFailed hl ha, rfl, rfl⟩,
    execConstruct_notUnbuilt⟩

/-- A CREATE_LINK whose endpoint name cannot be resolved (42_tick_and_host.md R127). -/
theorem exec_createLink_resolveFailed {path : String} {s : State} {removed : Bool} (hl : s.life = .live) (hp : path ≠ "")
    (hn : s.linkPath = none) (ha : s.answers.link = .resolveFailed removed) :
    ∃ actions, exec (.createLink path) s = .next (raiseFatal .linkResolveFailed (logHost actions s)) := by
  have hnew : ¬ (path = "" ∨ s.linkPath ≠ none) := by simp [hp, hn]
  simp only [exec, execCreateLink, whileLive_eq_next]
  rw [if_neg hnew, ha]
  cases removed with
  | true => exact ⟨[.objectRemovedAt path], hl, rfl⟩
  | false => exact ⟨[], hl, by rw [logHost_nil]⟩

/-- A CREATE_LINK that cannot clear the path or make the link (42_tick_and_host.md R127). -/
theorem exec_createLink_createFailed {path : String} {s : State} (hl : s.life = .live) (hp : path ≠ "")
    (hn : s.linkPath = none) (ha : s.answers.link = .removeFailed ∨ s.answers.link = .createFailed) :
    ∃ actions, exec (.createLink path) s = .next (raiseFatal .linkCreateFailed (logHost actions s)) := by
  have hnew : ¬ (path = "" ∨ s.linkPath ≠ none) := by simp [hp, hn]
  simp only [exec, execCreateLink, whileLive_eq_next]
  rw [if_neg hnew]
  obtain ha | ha := ha <;> rw [ha]
  · exact ⟨[], hl, by rw [logHost_nil]⟩
  · exact ⟨[.objectRemovedAt path], hl, rfl⟩

/-- Settles O4: the two fatal errors, by the host's answer; a fatal error touches the life and the response only. -/
theorem createLinkFailureKillsDevice : Obligations.CreateLinkFailureKillsDevice := by
  unfold Obligations.CreateLinkFailureKillsDevice
  intro path s hl hp hn hrefused
  cases ha : s.answers.link with
  | ok => exact absurd ha hrefused
  | resolveFailed removed =>
    obtain ⟨actions, hexec⟩ := exec_createLink_resolveFailed hl hp hn ha
    exact ⟨_, hexec, rfl, hn, rfl, rfl, rfl, fun _ => rfl, nofun⟩
  | removeFailed | createFailed =>
    obtain ⟨actions, hexec⟩ := exec_createLink_createFailed hl hp hn (by simp [ha])
    exact ⟨_, hexec, rfl, hn, rfl, rfl, rfl, nofun, fun _ => rfl⟩

/-- Settles O5: the one ending of the meaning; the record gains the two best-effort parts in their order. -/
theorem destroyEndsLife : Obligations.DestroyEndsLife := by
  unfold Obligations.DestroyEndsLife
  intro s
  refine ⟨fun hl => ⟨_, (execDestroy_eq_next s _).2 ⟨hl, rfl⟩, rfl, rfl, rfl, rfl, rfl, rfl, rfl, rfl, ?_⟩,
    fun hl => exec_notLive .destroy hl nofun⟩
  exact (List.append_assoc s.hostLog _ _).symm

end Sys2Proof.Machine
end

section
/-! PROOFS. The interrupt-pending flag and the abnormal endings (60_exceptions.md R151 to R167): what moves the flag, how
raises collapse, and which row a failure names. -/

namespace Sys2Proof.Machine

/-- The flag is a function of IIR (60_exceptions.md R154). -/
theorem irqOut_congr {s t : State} (h : t.reg.iir = s.reg.iir) : irqOut t = irqOut s := by
  rw [irqOut, irqOut, pendingFlag, pendingFlag, h]

/-- A conditional raise never clears the flag (60_exceptions.md R155, R159). -/
theorem irqOut_raiseIrqWhen (e : Bool) (s : State) : irqOut (raiseIrqWhen e s) = (irqOut s || e) := by
  cases e with
  | false => exact (Bool.or_false _).symm
  | true => exact (irqOut_of_raised rfl).trans (Bool.or_true _).symm

/-- A sent byte raises the flag under the enable (41_store.md R101). -/
theorem irqOut_afterSend (v : Byte) (s : State) : irqOut (afterSend v s) = (irqOut s || trigEnabled s) :=
  irqOut_raiseIrqWhen _ { s with tx := s.tx ++ [v] }

theorem irqOut_afterSend_enabled (v : Byte) {s : State} (he : trigEnabled s = true) : irqOut (afterSend v s) = true := by
  rw [irqOut_afterSend, he, Bool.or_true]

theorem trigEnabled_afterSend (v : Byte) (s : State) : trigEnabled (afterSend v s) = trigEnabled s := by
  simp [trigEnabled, afterSend]

/-- A live device that stays live keeps IIR, unless the row is one of the three that move the flag (90_conflicts.md C2). -/
theorem exec_keeps_iir {i : Instr} {s t : State} (h : exec i s = .next t) (hs : s.life = .live) (ht : t.life = .live)
    (hsend : ∀ lane data, i ≠ .stData lane data) (htick : i ≠ .tick) (hack : ∀ lane n, i ≠ .ldIir lane n) :
    t.reg.iir = s.reg.iir := by
  cases effect_of_exec h with
  | storeDataSent => exact absurd rfl (hsend _ _)
  | tick => exact absurd rfl htick
  | loadInterruptId => exact absurd rfl (hack _ _)
  | storeRegister v hr => exact (storedRegisters_keeps hr).1
  | constructDone => cases hs.symm.trans (unbuilt_of_construct h)
  | destroy => cases ht
  | _ => rfl

/-- What LD.IIR leaves: the flag cleared, and the byte that stood before the clear returned (40_load.md R85). -/
theorem effect_ldIir {lane : Lane} {n : Nat} {s t : State} (e : Effect s (.ldIir lane n) t) :
    t = returnLoad n s.reg.iir (clearIrq s) := by
  cases e with
  | loadInterruptId => rfl
  | loadRegister _ hrow | storeRegister _ hrow => cases hrow

/-- Settles O21: each mutator by its effect, every other row by leaving IIR. -/
theorem interruptFlagHasThreeMutators : Obligations.InterruptFlagHasThreeMutators := by
  unfold Obligations.InterruptFlagHasThreeMutators
  intro i s t h hs ht
  have e := effect_of_exec h
  constructor
  · split
    · cases e with
      | storeDataSent _ v => exact irqOut_afterSend v s
      | storeDataRefused => cases ht
      | loadRegister _ hrow | storeRegister _ hrow => cases hrow
    · cases e with
      | tick => exact irqOut_raiseIrqWhen _ s
      | loadRegister _ hrow | storeRegister _ hrow => cases hrow
    · rw [effect_ldIir e]
      exact irqOut_of_cleared rfl
    · next hsend htick hack => exact irqOut_congr (exec_keeps_iir h hs ht hsend htick hack)
  · rintro lane n rfl
    rw [effect_ldIir e]
    exact ⟨s.reg.iir, _, rfl, (Bool.not_not _).symm⟩

/-- The table of R151: which row may report which fatal error. -/
def MayReport (i : Instr) (e : Fatal) : Prop :=
  match e with
  | .channelAllocFailed => i = .construct
  | .channelConfigFailed => i = .construct
  | .linkResolveFailed => ∃ path, i = .createLink path
  | .linkCreateFailed => ∃ path, i = .createLink path
  | .txShortWrite => ∃ lane data, i = .stData lane data

/-- A fatal ending is that of a row the table names, and touches life, response and the record of host actions only
(60_exceptions.md R151, R153). -/
theorem effect_fatal {i : Instr} {s t : State} {e : Fatal} (h : Effect s i t) (hfatal : t.response = .fatal e) :
    MayReport i e ∧ ∃ actions, t = raiseFatal e (logHost actions s) := by
  cases h with
  | storeDataRefused lane v more =>
    cases hfatal
    exact ⟨⟨lane, v :: more, rfl⟩, [], by rw [logHost_nil]⟩
  | constructFatal _ actions he =>
    cases hfatal
    obtain rfl | rfl := he <;> exact ⟨rfl, actions, rfl⟩
  | createLinkFatal path _ actions _ _ he =>
    cases hfatal
    obtain rfl | rfl := he <;> exact ⟨⟨path, rfl⟩, actions, rfl⟩
  | _ => cases hfatal

/-- A LOAD that fails is the out-of-window row (60_exceptions.md R152). -/
theorem effect_loadFail {i : Instr} {s t : State} {why : BusFailure} {out : List Byte} (h : Effect s i t)
    (hfail : t.response = .loadFail why out) :
    t.life = s.life ∧ ∃ address n, i = .ldOow address n ∧ 64 ≤ address := by
  cases h with
  | loadOutside address n ha => exact ⟨rfl, address, n, rfl, (eight_le_idx_iff address).1 ha⟩
  | _ => cases hfail

/-- A STORE that fails is the out-of-window row (60_exceptions.md R152). -/
theorem effect_storeFail {i : Instr} {s t : State} {why : BusFailure} (h : Effect s i t)
    (hfail : t.response = .storeFail why) :
    t.life = s.life ∧ ∃ address data, i = .stOow address data ∧ 64 ≤ address := by
  cases h with
  | storeOutside address data ha => exact ⟨rfl, address, data, rfl, (eight_le_idx_iff address).1 ha⟩
  | _ => cases hfail

/-- A live device ends by DESTROY or by a fatal error only (10_state.md R31). -/
theorem effect_live {i : Instr} {s t : State} (h : Effect s i t) (hs : s.life = .live) :
    t.life = .live ∨ i = .destroy ∨ ∃ e, t.response = .fatal e := by
  cases h with
  | storeDataRefused | constructFatal | createLinkFatal => exact .inr (.inr ⟨_, rfl⟩)
  | destroy => exact .inr (.inl rfl)
  | _ => exact .inl (by simp [hs])

/-- Settles O43: the effect of the row, read by its response and by the life it leaves. -/
theorem abnormalEndingsAreThoseOfTheTable : Obligations.AbnormalEndingsAreThoseOfTheTable := by
  unfold Obligations.AbnormalEndingsAreThoseOfTheTable
  intro i s t h
  have heffect := effect_of_exec h
  refine ⟨fun e hfatal => ?_, fun _ _ => effect_loadFail heffect, fun _ => effect_storeFail heffect, effect_live heffect⟩
  obtain ⟨hrow, actions, rfl⟩ := effect_fatal heffect hfatal
  exact ⟨rfl, rfl, rfl, rfl, rfl, hrow⟩

/-- Data STOREs with the enable set leave the flag pending if it was or if there was one, whatever waits behind them. -/
theorem safeRun_sendAll_enabled (bytes : List Byte) {s : State} (hl : s.life = .live)
    (hd : s.reg.lcr.getLsbD 7 = false) (he : trigEnabled s = true) :
    ∃ u, (∀ ops, SafeRun bytes.length (presentAll (bytes.map (fun v => .store 0 [v]) ++ ops) s) (presentAll ops u)) ∧
      u.life = .live ∧ u.reg.lcr.getLsbD 7 = false ∧ irqOut u = (irqOut s || !bytes.isEmpty) := by
  induction bytes generalizing s with
  | nil => exact ⟨s, fun _ => rfl, hl, hd, (Bool.or_false _).symm⟩
  | cons v bytes ih =>
    have hraised : irqOut (afterSend v { s with answers := .accepting }) = true :=
      irqOut_afterSend_enabled v he
    obtain ⟨u, hrun, hul, hud, huirq⟩ :=
      ih (s := afterSend v { s with answers := .accepting }) (by simpa using hl) (by simpa using hd)
        ((trigEnabled_afterSend v _).trans he)
    refine ⟨u, fun ops => safeRun_cons (step_presentAll_store_data v _ hl hd) (hrun ops), hul, hud, ?_⟩
    simp [huirq, hraised]

/-- Settles O47: after the STOREs the flag is pending, so the first LD.IIR reports it and clears it for the second. -/
theorem raisesCollapseIntoOneAcknowledge : Obligations.RaisesCollapseIntoOneAcknowledge := by
  unfold Obligations.RaisesCollapseIntoOneAcknowledge
  intro s bytes hl hd he hbytes
  obtain ⟨u, hsend, hul, hud, huirq⟩ := safeRun_sendAll_enabled bytes hl hd he
  have hpending : irqOut u = true := by simp [huirq, hbytes]
  refine ⟨⟨_, u.reg.iir, (safeRun_add bytes.length 1 _ _).2 ⟨_, hsend _,
      safeRun_cons (step_presentAll_load_iir [] hul hud) rfl⟩, rfl, ?_⟩,
    ⟨_, u.reg.iir ||| 0x01, (safeRun_add bytes.length 2 _ _).2 ⟨_, hsend _,
      safeRun_cons (step_presentAll_load_iir _ hul hud) <|
      safeRun_cons (step_presentAll_load_iir [] hul hud) rfl⟩, rfl, ?_, ?_⟩⟩
  · simpa [irqOut, pendingFlag] using hpending
  · rw [clear_bit, decide_eq_true rfl, Bool.or_true]
  · exact irqOut_of_cleared (v := u.reg.iir ||| 0x01) rfl

end Sys2Proof.Machine
end

section
/-! PROOFS. The end of life (70_reset_and_hazards.md R181) and the hazards of one offset naming more than one register
(R185, R192, R194). -/

namespace Sys2Proof.Machine

/-- A dead device refuses every row, CONSTRUCT for want of an unbuilt device (10_state.md R31, 42_tick_and_host.md R126). -/
theorem exec_dead (i : Instr) {s : State} (hdead : s.life = .dead) : ∃ r, exec i s = .refused r := by
  by_cases hi : i = .construct
  · subst hi
    exact ⟨_, execConstruct_notUnbuilt (by simp [hdead])⟩
  · exact ⟨_, exec_notLive i (by simp [hdead]) hi⟩

/-- A dead device refuses whatever is presented to it, decodable or not (30_encoding.md R69). -/
theorem step_dead_refused {s : State} (hdead : s.life = .dead) (hpresented : s.pending ≠ []) :
    ∃ r, step s = .refused r := by
  obtain ⟨p, rest, hp⟩ := List.exists_cons_of_ne_nil hpresented
  cases hd : decode s.reg.lcr p.op with
  | ok i =>
    rw [step_of_pending hp hd]
    exact exec_dead i (s := takePresented p rest s) hdead
  | error e => exact ⟨refusalOf e, by simp only [step, hp, hd]⟩

/-- The only step of a dead device that ends in a state is the idle one. -/
theorem step_dead_eq {s t : State} (h : step s = .next t) (hdead : s.life = .dead) : t = s := by
  obtain ⟨-, rfl⟩ | ⟨p, rest, i, -, -, hexec⟩ := step_next_cases s t h
  · rfl
  · obtain ⟨r, hrefused⟩ := exec_dead i (s := takePresented p rest s) hdead
    cases hrefused.symm.trans hexec

/-- A run of a dead device that ends in a state ends where it began. -/
theorem safeRun_dead_eq {k : Nat} {s t : State} (hrun : SafeRun k s t) : s.life = .dead → t = s := by
  refine safeRun_relates (fun s t => s.life = .dead → t = s) (fun _ _ => rfl) (fun a b c hab hbc hdead => ?_)
    (fun _ _ => step_dead_eq) k s t hrun
  obtain rfl := hab hdead
  exact hbc hdead

/-- No run makes a built device unbuilt (10_state.md R31). -/
theorem safeRun_keeps_built {k : Nat} {s t : State} (hrun : SafeRun k s t) (hbuilt : s.life ≠ .unbuilt) :
    t.life ≠ .unbuilt :=
  (safeRun_relates KeepsTrace .refl (fun _ _ _ => .trans) step_keepsTrace k s t hrun hbuilt).1

/-- Settles O40: the two facts about runs, and the refusal of whatever is presented to a dead device. -/
theorem deadDeviceStaysDead : Obligations.DeadDeviceStaysDead := by
  unfold Obligations.DeadDeviceStaysDead
  exact ⟨fun _ _ _ hrun => ⟨safeRun_dead_eq hrun, safeRun_keeps_built hrun⟩, fun _ => step_dead_refused⟩

/-- A step on a presented one-byte LOAD that resolves to a row returning a register. -/
theorem step_presentAll_load_register {a : Nat} {i : Instr} {b : Byte} (ops : List Operation) {s : State}
    (hl : s.life = .live) (hd : decode s.reg.lcr (.load a 1) = .ok i) (hb : loadedRegister s.reg i = some b) :
    step (presentAll (.load a 1 :: ops) s) =
      .next (presentAll ops (returnLoad 1 b { s with answers := .accepting })) := by
  obtain ⟨-, hcond, henc⟩ := decode_spec hd
  obtain ⟨rest, hrest, hexec⟩ :=
    exec_loadedRegister (s := presentAll ops { s with answers := .accepting }) hl henc le_rfl hcond hb
  obtain rfl : rest = [] := List.length_eq_zero_iff.1 (by omega)
  rw [step_presentAll_cons ops hd, hexec]
  rfl

/-- Settles O46: with Line Control `0xBF` the two offsets resolve to the rows of DLL and of EFR. -/
theorem extendedBankHidesDataPath : Obligations.ExtendedBankHidesDataPath := by
  unfold Obligations.ExtendedBankHidesDataPath
  intro s v hl hlcr
  have hdlab : dlab s.reg.lcr = true := by rw [hlcr]; rfl
  have hext : ext s.reg.lcr = true := by rw [hlcr]; rfl
  exact ⟨⟨_, step_presentAll_store_dll v [] hl hdlab, rfl, rfl⟩,
    ⟨_, step_presentAll_load_register [] hl (decode_encode (i := .ldDll 0 1) rfl hdlab) rfl, rfl, rfl, rfl⟩,
    ⟨_, step_presentAll_load_register [] hl (decode_encode (i := .ldEfr 0 1) rfl hext) rfl, rfl, rfl⟩,
    ⟨_, step_presentAll_store_register [] hl (decode_encode (i := .stEfr 0 [v]) rfl hext) rfl, rfl⟩⟩

/-- A one-byte STORE to a register row and a LOAD of the same offset: the byte returned is that of the register file the
STORE left, read in the mode it left. -/
theorem safeRun_store_load {a : Nat} {v b : Byte} {i j : Instr} {r : Regs} {s : State} (hl : s.life = .live)
    (hstore : decode s.reg.lcr (.store a [v]) = .ok i) (hr : storedRegisters v s.reg i = some r)
    (hload : decode r.lcr (.load a 1) = .ok j) (hb : loadedRegister r j = some b) :
    ∃ t, SafeRun 2 (presentAll [.store a [v], .load a 1] s) t ∧ t.response = .loadOk [b] :=
  ⟨_,
    safeRun_cons (step_presentAll_store_register _ hl hstore hr) <|
    safeRun_cons (step_presentAll_load_register [] (s := afterStore r s) hl hload hb) rfl,
    rfl⟩

/-- A STORE to Line Status leaves no trace in the LOAD after it: the row discards the byte, and the LOAD overwrites the
response (41_store.md R109). -/
theorem safeRun_store_load_lsr (v : Byte) {s : State} (hl : s.life = .live) :
    SafeRun 2 (presentAll [.store 40 [v], .load 40 1] s) (afterLineStatus s) :=
  safeRun_cons (step_presentAll_store_register _ hl (decode_encode (i := .stLsr 0 [v]) rfl rfl) rfl) <|
  safeRun_cons (step_presentAll_load_lsr [] (s := afterStore s.reg s) hl) rfl

/-- Settles O49: the two rows of each offset in its mode, the LOAD reading the register file the STORE left. -/
theorem storedRegistersReadBack : Obligations.StoredRegistersReadBack := by
  unfold Obligations.StoredRegistersReadBack
  intro s v hl
  refine ⟨?_, ?_, ?_⟩
  · rintro a (rfl | rfl | rfl | ⟨rfl, hclear⟩ | ⟨rfl | rfl, hset⟩ | ⟨rfl, hlcr⟩)
    · exact safeRun_store_load hl (decode_encode (i := .stLcr 0 [v]) rfl rfl) rfl
        (decode_encode (i := .ldLcr 0 1) rfl rfl) rfl
    · exact safeRun_store_load hl (decode_encode (i := .stMcr 0 [v]) rfl rfl) rfl
        (decode_encode (i := .ldMcr 0 1) rfl rfl) rfl
    · exact safeRun_store_load hl (decode_encode (i := .stScr 0 [v]) rfl rfl) rfl
        (decode_encode (i := .ldScr 0 1) rfl rfl) rfl
    · have hnormal : RowCond.dlabClear.holds s.reg.lcr = true := congrArg (!·) hclear
      exact safeRun_store_load hl (decode_encode (i := .stIer 0 [v]) rfl hnormal) rfl
        (decode_encode (i := .ldIer 0 1) rfl hnormal) rfl
    · exact safeRun_store_load hl (decode_encode (i := .stDll 0 [v]) rfl hset) rfl
        (decode_encode (i := .ldDll 0 1) rfl hset) rfl
    · exact safeRun_store_load hl (decode_encode (i := .stDlm 0 [v]) rfl hset) rfl
        (decode_encode (i := .ldDlm 0 1) rfl hset) rfl
    · have hext : ext s.reg.lcr = true := by rw [hlcr]; rfl
      exact safeRun_store_load hl (decode_encode (i := .stEfr 0 [v]) rfl hext) rfl
        (decode_encode (i := .ldEfr 0 1) rfl hext) rfl
  · exact safeRun_store_load hl (decode_encode (i := .stMsr 0 [v]) rfl rfl) rfl
      (decode_encode (i := .ldMsr 0 1) rfl rfl) rfl
  · exact ⟨_, _, safeRun_store_load_lsr v hl, safeRun_cons (step_presentAll_load_lsr [] hl) rfl, rfl⟩

end Sys2Proof.Machine
end
